-- ==== Sys2Proof/Word.lean ====
section
/-! DEFINITION. The two word types of the block: the 8-bit byte and the 16-bit word (R7). Arithmetic on them is `BitVec`'s,
which wraps modulo 2^8 and 2^16 as R22 and R29 ask. -/

namespace Sys2Proof

/-- An 8-bit value: a register, a memory datum, an opcode (R7). Bits are numbered from 0, the least significant (R8). -/
abbrev Byte := BitVec 8

/-- A 16-bit value: a register pair, PC, SP, a memory address (R7). -/
abbrev Word := BitVec 16

end Sys2Proof
end

