-- ==== Sys2Proof/Syntax.lean ====
section
/-! DEFINITION. The instructions of the block: one constructor of `Instr` per row of spec/opcode_table.json (R90), the 17 operations the dispatch table names
(R89), the three formats (R86), and an assembler line before its operand is checked (R97). -/

namespace Sys2Proof

/-- An instruction with its immediate operand, if it has one. Registers are named by the opcode, not by fields (R87). -/
inductive Instr where
  /-- `NOP`, 0x00 (R120). -/
  | nop
  /-- `LD BC,nn`, 0x01 (R200). -/
  | ldBCnn (nn : Word)
  /-- `LD (BC),A`, 0x02 (R201). -/
  | ldIndBCA
  /-- `INC BC`, 0x03 (R160). -/
  | incBC
  /-- `INC B`, 0x04 (R144). -/
  | incB
  /-- `DEC B`, 0x05 (R145). -/
  | decB
  /-- `LD B,n`, 0x06 (R202). -/
  | ldBn (n : Byte)
  /-- `RLCA`, 0x07 (R190). -/
  | rlca
  /-- `EX AF,AF'`, 0x08 (R180). -/
  | exAFAF
  /-- `ADD HL,BC`, 0x09 (R162). -/
  | addHLBC
  /-- `LD A,(BC)`, 0x0A (R203). -/
  | ldAIndBC
  /-- `DEC BC`, 0x0B (R161). -/
  | decBC
  /-- `INC C`, 0x0C (R146). -/
  | incC
  /-- `DEC C`, 0x0D (R147). -/
  | decC
  /-- `LD C,n`, 0x0E (R204). -/
  | ldCn (n : Byte)
  /-- `RRCA`, 0x0F (R191). -/
  | rrca
  /-- `HALT`, 0x76 (R121). -/
  | halt
  deriving DecidableEq, Repr

/-- The operation a dispatch-table entry names (R89): an instruction before its operand bytes are fetched. -/
inductive Operation where
  | nop | ldBCnn | ldIndBCA | incBC | incB | decB | ldBn | rlca | exAFAF | addHLBC | ldAIndBC | decBC | incC | decC | ldCn | rrca | halt
  deriving DecidableEq, Repr

/-- The three formats (R86). -/
inductive Format where
  /-- `OP`: the opcode alone. -/
  | op
  /-- `OP_N`: the opcode and an 8-bit immediate. -/
  | opN
  /-- `OP_NN`: the opcode and a 16-bit immediate, low byte first. -/
  | opNN
  deriving DecidableEq, Repr

/-- An entry of the dispatch table (R89). -/
inductive TableEntry where
  | defined (operation : Operation) (cost : Nat)
  | undefined
  deriving DecidableEq, Repr

/-- A line as an assembler reads it (R97): an operation and the number written for `n` or `nn`, if one is written.
It may be ill-formed: `AsmLine.wellFormed` checks it. -/
structure AsmLine where
  operation : Operation
  immediate : Option Nat
  deriving DecidableEq, Repr

/-- The format column of R90's table. -/
def Operation.format : Operation → Format
  | .ldBCnn => .opNN
  | .ldBn | .ldCn => .opN
  | .nop | .ldIndBCA | .incBC | .incB | .decB | .rlca | .exAFAF | .addHLBC | .ldAIndBC | .decBC | .incC | .decC | .rrca | .halt => .op

/-- The operation of an instruction. -/
def Instr.operation : Instr → Operation
  | .nop => .nop
  | .ldBCnn _ => .ldBCnn
  | .ldIndBCA => .ldIndBCA
  | .incBC => .incBC
  | .incB => .incB
  | .decB => .decB
  | .ldBn _ => .ldBn
  | .rlca => .rlca
  | .exAFAF => .exAFAF
  | .addHLBC => .addHLBC
  | .ldAIndBC => .ldAIndBC
  | .decBC => .decBC
  | .incC => .incC
  | .decC => .decC
  | .ldCn _ => .ldCn
  | .rrca => .rrca
  | .halt => .halt

end Sys2Proof
end

