-- ==== Sys2Proof/WellFormed.lean ====
section
/-! DEFINITION. Well-formedness. An `Instr` carries its operands at their exact widths, so each one is well-formed (log entry 10); what can be ill-formed is
the line an assembler reads (R97): an immediate missing, an immediate too many, or an immediate that its field cannot hold. -/

namespace Sys2Proof

/-- The immediates each format takes (R86): none, one below 2^8, one below 2^16. -/
def Format.admits : Format → Option Nat → Bool
  | .op, none => true
  | .op, some _ => false
  | .opN, none => false
  | .opN, some n => decide (n < 2 ^ 8)
  | .opNN, none => false
  | .opNN, some nn => decide (nn < 2 ^ 16)

/-- The line gives exactly the immediate its operation's format has, within that field's range (R86, R97). -/
def AsmLine.wellFormed (line : AsmLine) : Bool := line.operation.format.admits line.immediate

/-- The line that writes an instruction (R97). -/
def Instr.toLine (i : Instr) : AsmLine :=
  match i with
  | .ldBCnn nn => ⟨i.operation, some nn.toNat⟩
  | .ldBn n | .ldCn n => ⟨i.operation, some n.toNat⟩
  | .nop | .ldIndBCA | .incBC | .incB | .decB | .rlca | .exAFAF | .addHLBC | .ldAIndBC | .decBC | .incC | .decC | .rrca | .halt => ⟨i.operation, none⟩

/-- An instruction is well-formed when the line that writes it is. -/
def Instr.wellFormed (i : Instr) : Bool := i.toLine.wellFormed

end Sys2Proof
end

