-- ==== Sys2Proof/Decode.lean ====
section
/-! DEFINITION. The dispatch table (R89, R90), decoding as a total function of the bytes that rejects by name (R92 to R95), the encoder written from the same
table (R86, R90), the assembler (R97), the informative field view of an opcode (R88), and the byte-order helpers (R10, R23, R65). -/

namespace Sys2Proof

/-- `lo(w) = w[7:0]` (R10). -/
def loByte (w : Word) : Byte := w.extractLsb' 0 8

/-- `hi(w) = w[15:8]` (R10). -/
def hiByte (w : Word) : Byte := w.extractLsb' 8 8

/-- `hi : lo`, the high part first (R8): the composition of a register pair (R23) and of a 16-bit memory datum (R65). -/
def joinBytes (hi lo : Byte) : Word := hi ++ lo

/-- `zext_16` of a byte (R10). -/
def zext16 (v : Byte) : Word := v.zeroExtend 16

/-- `sext_16` of a byte (R10), defined for completeness: no in-scope instruction sign-extends. -/
def sext16 (v : Byte) : Word := v.signExtend 16

/-- The dispatch table (R89, R90): `Undefined` for the 239 bytes R93 names, the prefix bytes of R95 among them. -/
def dispatchTable (op : Byte) : TableEntry :=
  match op with
  | 0x00#8 => .defined .nop 4
  | 0x01#8 => .defined .ldBCnn 10
  | 0x02#8 => .defined .ldIndBCA 7
  | 0x03#8 => .defined .incBC 6
  | 0x04#8 => .defined .incB 4
  | 0x05#8 => .defined .decB 4
  | 0x06#8 => .defined .ldBn 7
  | 0x07#8 => .defined .rlca 4
  | 0x08#8 => .defined .exAFAF 4
  | 0x09#8 => .defined .addHLBC 11
  | 0x0A#8 => .defined .ldAIndBC 7
  | 0x0B#8 => .defined .decBC 6
  | 0x0C#8 => .defined .incC 4
  | 0x0D#8 => .defined .decC 4
  | 0x0E#8 => .defined .ldCn 7
  | 0x0F#8 => .defined .rrca 4
  | 0x76#8 => .defined .halt 4
  | _ => .undefined

/-- Why bytes do not decode. -/
inductive DecodeError where
  /-- There is no opcode byte. -/
  | noBytes
  /-- The opcode's entry is `Undefined` (R92, R93). -/
  | undefinedOpcode (op : Byte)
  /-- The bytes end before the operation's operand bytes do. -/
  | operandMissing (operation : Operation)
  deriving DecidableEq, Repr

/-- What an operation still needs to be an instruction: nothing, the byte `n`, or the word `nn` (R86). -/
inductive Shape where
  | implied (i : Instr)
  | imm8 (build : Byte → Instr)
  | imm16 (build : Word → Instr)

/-- The shape of each operation (R90's format column). -/
def Operation.shape : Operation → Shape
  | .nop => .implied .nop
  | .ldBCnn => .imm16 .ldBCnn
  | .ldIndBCA => .implied .ldIndBCA
  | .incBC => .implied .incBC
  | .incB => .implied .incB
  | .decB => .implied .decB
  | .ldBn => .imm8 .ldBn
  | .rlca => .implied .rlca
  | .exAFAF => .implied .exAFAF
  | .addHLBC => .implied .addHLBC
  | .ldAIndBC => .implied .ldAIndBC
  | .decBC => .implied .decBC
  | .incC => .implied .incC
  | .decC => .implied .decC
  | .ldCn => .imm8 .ldCn
  | .rrca => .implied .rrca
  | .halt => .implied .halt

/-- The length of a format in bytes (R86). -/
def Format.length : Format → Nat
  | .op => 1
  | .opN => 2
  | .opNN => 3

/-- The length column of R90's table: the opcode alone fixes it (R85). -/
def Operation.length (o : Operation) : Nat := o.format.length

/-- The operand bytes of an operation, in increasing address order, and the bytes after them (R87). -/
def decodeOperands (o : Operation) (bytes : List Byte) : Except DecodeError (Instr × List Byte) :=
  match o.shape, bytes with
  | .implied i, rest => .ok (i, rest)
  | .imm8 build, n :: rest => .ok (build n, rest)
  | .imm16 build, lo :: hi :: rest => .ok (build (joinBytes hi lo), rest)
  | .imm8 _, [] => .error (.operandMissing o)
  | .imm16 _, _ => .error (.operandMissing o)

/-- The instruction at the head of a byte stream and the rest of the stream (R85, R92). -/
def decode : List Byte → Except DecodeError (Instr × List Byte)
  | [] => .error .noBytes
  | op :: rest =>
    match dispatchTable op with
    | .undefined => .error (.undefinedOpcode op)
    | .defined o _ => decodeOperands o rest

/-- The opcode column of R90's table. -/
def Operation.opcode : Operation → Byte
  | .nop => 0x00#8
  | .ldBCnn => 0x01#8
  | .ldIndBCA => 0x02#8
  | .incBC => 0x03#8
  | .incB => 0x04#8
  | .decB => 0x05#8
  | .ldBn => 0x06#8
  | .rlca => 0x07#8
  | .exAFAF => 0x08#8
  | .addHLBC => 0x09#8
  | .ldAIndBC => 0x0A#8
  | .decBC => 0x0B#8
  | .incC => 0x0C#8
  | .decC => 0x0D#8
  | .ldCn => 0x0E#8
  | .rrca => 0x0F#8
  | .halt => 0x76#8

/-- The operand bytes of an instruction, low byte first (R86). -/
def Instr.operandBytes : Instr → List Byte
  | .ldBCnn nn => [loByte nn, hiByte nn]
  | .ldBn n | .ldCn n => [n]
  | .nop | .ldIndBCA | .incBC | .incB | .decB | .rlca | .exAFAF | .addHLBC | .ldAIndBC | .decBC | .incC | .decC | .rrca | .halt => []

/-- The bytes of an instruction, in increasing address order (R86). -/
def encode (i : Instr) : List Byte := i.operation.opcode :: i.operandBytes

/-- The instruction an assembler line stands for, for a well-formed line (R97); none for another. -/
def AsmLine.instr (line : AsmLine) : Option Instr :=
  if line.wellFormed then
    match line.operation.shape, line.immediate with
    | .implied i, _ => some i
    | .imm8 build, some n => some (build (BitVec.ofNat 8 n))
    | .imm16 build, some nn => some (build (BitVec.ofNat 16 nn))
    | _, none => none
  else none

/-- The bytes an assembler writes for a line (R97). -/
def AsmLine.assemble (line : AsmLine) : Option (List Byte) := line.instr.map encode

/-- The mnemonic as Zilog's assembler writes it (R90, R97). -/
def Operation.mnemonic : Operation → String
  | .nop => "NOP"
  | .ldBCnn => "LD BC,nn"
  | .ldIndBCA => "LD (BC),A"
  | .incBC => "INC BC"
  | .incB => "INC B"
  | .decB => "DEC B"
  | .ldBn => "LD B,n"
  | .rlca => "RLCA"
  | .exAFAF => "EX AF,AF'"
  | .addHLBC => "ADD HL,BC"
  | .ldAIndBC => "LD A,(BC)"
  | .decBC => "DEC BC"
  | .incC => "INC C"
  | .decC => "DEC C"
  | .ldCn => "LD C,n"
  | .rrca => "RRCA"
  | .halt => "HALT"

/-- The fields `x y z p q` of an opcode byte (R88, informative: the decoder matches whole bytes). -/
structure OpcodeFields where
  x : BitVec 2
  y : BitVec 3
  z : BitVec 3
  p : BitVec 2
  q : BitVec 1
  deriving DecidableEq, Repr

/-- R88's field view: `x = op[7:6]`, `y = op[5:3]`, `z = op[2:0]`, `p = op[5:4]`, `q = op[3]`. -/
def opcodeFields (op : Byte) : OpcodeFields :=
  ⟨op.extractLsb' 6 2, op.extractLsb' 3 3, op.extractLsb' 0 3, op.extractLsb' 4 2, op.extractLsb' 3 1⟩

/-- Byte `k` of an instruction's bits as spec/opcode_table.json numbers them: bit 0 is the least significant bit of the first byte. -/
def tableByte (nbits w k : Nat) : Byte := BitVec.ofNat 8 ((w % 2 ^ nbits) / 2 ^ (8 * k))

/-- The longest instruction's bytes, the bits above `nbits` zero. -/
def tableBytes (nbits w : Nat) : List Byte := [tableByte nbits w 0, tableByte nbits w 1, tableByte nbits w 2]

/-- The instruction the decoder reads from the table's bits; none where it refuses. -/
def decodeTableWord (nbits w : Nat) : Option Instr :=
  match decode (tableBytes nbits w) with
  | .ok (i, _) => some i
  | .error _ => none

end Sys2Proof
end

