-- ==== Sys2Proof/Config.lean ====
section
/-! DEFINITION. What is fixed for the machine, and the free values. The one named parameter of the spec is F53_POLICY (R7);
the free values are the bits its policy ANY draws and the bytes an I/O port answers (R68). -/

namespace Sys2Proof

/-- F53_POLICY (R7, D6, I7): what an instruction that computes flags writes into F5 and F3. -/
inductive F53Policy where
  /-- `COPY_RESULT`, this spec's value: copies of result bits. -/
  | copyResult
  /-- `ANY`: each write of F5 or F3 is a free draw of one bit. -/
  | any
  deriving DecidableEq, Repr

/-- The spec's value of F53_POLICY (R7). -/
def Config.f53Policy : F53Policy := .copyResult

/-- The free draws of F53_POLICY = ANY (R7), numbered by `State.draws`: nothing says which bit a draw gives.
DESIGN CHOICE (log entry 2). -/
opaque Config.freeBit : Nat → Bool

/-- The byte an I/O port answers (R68): the I/O collaborator's behaviour is not given, so nothing says which byte it is.
The first argument is the draw's number, the second the port. DESIGN CHOICE (log entry 7). -/
opaque Config.freePortByte : Nat → Byte → Byte

/-- What a memory byte that the list of cells does not name reads as. DESIGN CHOICE (log entry 1): the vectors of
95_test_vectors.md take memory bytes not named to be 0x00. -/
def Config.unlistedByte : Byte := 0x00#8

end Sys2Proof
end

