-- ==== Sys2Proof/Machine/State.lean ====
section
/-! DEFINITION. The state of the machine as plain data: every field of the ProcessorState (R20), the memory collaborator's contents (R61, R62), the histories
the spec says a model keeps (R70, R131, R225), and the model's own fields; the closed enumerations of register and flag identifiers (R28, R30); the reasons a
step or a host call can stop; and reset (R250). -/

namespace Sys2Proof.Machine

/-- Memory as a list of (address, byte) cells in one canonical form: addresses strictly rising and below 2^16, no cell
holding `Config.unlistedByte` (`Memory.wf`). An address that is not listed reads as `Config.unlistedByte`. -/
abbrev Memory := List Host.Cell

/-- Interrupt mode selector values (R37): 0, 1 and 2. The value 3 of the 2-bit field is not one of them (log entry 8). -/
inductive InterruptMode where
  | im0 | im1 | im2
  deriving DecidableEq, Repr

/-- Identifiers of the 8-bit registers (R20, R28): the primary set, the shadow set, the index halves, I and R. -/
inductive Reg8 where
  | a | f | b | c | d | e | h | l
  | shadowA | shadowF | shadowB | shadowC | shadowD | shadowE | shadowH | shadowL
  | ixh | ixl | iyh | iyl
  | i | r
  deriving DecidableEq, Repr

/-- Identifiers of the composed 16-bit pairs (R23, R28). -/
inductive Pair where
  | af | bc | de | hl | shadowAF | shadowBC | shadowDE | shadowHL | ix | iy
  deriving DecidableEq, Repr

/-- The eight flags of F (R30). -/
inductive Flag where
  /-- Sign, bit 7. -/
  | s
  /-- Zero, bit 6. -/
  | z
  /-- Bit 5. -/
  | f5
  /-- Half carry, bit 4. -/
  | h
  /-- Bit 3. -/
  | f3
  /-- Parity/overflow, bit 2. -/
  | pv
  /-- Add-subtract, bit 1. -/
  | n
  /-- Carry, bit 0. -/
  | c
  deriving DecidableEq, Repr

/-- A bus event (R70). -/
inductive BusEvent where
  /-- An opcode or operand fetch. -/
  | fetch (addr : Word) (byte : Byte)
  /-- A data read. -/
  | read (addr : Word) (byte : Byte)
  /-- A data write. -/
  | write (addr : Word) (byte : Byte)
  deriving DecidableEq, Repr

/-- A call of an I/O primitive (R68). -/
inductive PortEvent where
  | read (port : Byte) (byte : Byte)
  | write (port : Byte) (byte : Byte)
  deriving DecidableEq, Repr

/-- Why a step stops with a fault. -/
inductive Fault where
  /-- DecodeFault (R220, R221), raised by a step whose fetched opcode byte has an `Undefined` entry; `pc` is the opcode's
  address. Safe: it is the spec's own outcome of such a step. -/
  | decodeFault (pc : Word) (opcode : Byte)
  deriving DecidableEq, Repr

/-- Why an instruction or a host call is refused. -/
inductive Refusal where
  /-- An instruction without a meaning yet, raised by `exec` alone. Safe: the model stops. No arm raises it. -/
  | notModelled (mnemonic : String)
  /-- A host write of 3 to IM (R131), raised by the host call alone. Safe: it is the spec's own refusal. -/
  | interruptModeThree
  deriving DecidableEq, Repr

/-- The state. The fields from `a` to `tStates` are the ProcessorState (R20). -/
structure State where
  /-- A -/
  a : Byte
  /-- F, the one storage of the eight flags (R31) -/
  f : Byte
  /-- B -/
  b : Byte
  /-- C -/
  c : Byte
  /-- D -/
  d : Byte
  /-- E -/
  e : Byte
  /-- H -/
  h : Byte
  /-- L -/
  l : Byte
  /-- A' -/
  shadowA : Byte
  /-- F' (R32) -/
  shadowF : Byte
  /-- B' -/
  shadowB : Byte
  /-- C' -/
  shadowC : Byte
  /-- D' -/
  shadowD : Byte
  /-- E' -/
  shadowE : Byte
  /-- H' -/
  shadowH : Byte
  /-- L' -/
  shadowL : Byte
  /-- High half of IX -/
  ixh : Byte
  /-- Low half of IX -/
  ixl : Byte
  /-- High half of IY -/
  iyh : Byte
  /-- Low half of IY -/
  iyl : Byte
  /-- SP (R24) -/
  sp : Word
  /-- PC (R24, R29) -/
  pc : Word
  /-- I, the interrupt vector register (R34) -/
  i : Byte
  /-- R, the refresh register: R.count in bits 6:0, R.hold in bit 7 (R35) -/
  r : Byte
  /-- IFF1 (R36) -/
  iff1 : Bool
  /-- IFF2 (R36) -/
  iff2 : Bool
  /-- IM (R37) -/
  im : InterruptMode
  /-- halted (R38) -/
  halted : Bool
  /-- T, the T-state counter, unbounded (R46) -/
  tStates : Nat
  /-- The memory collaborator's contents (R61, R62) -/
  mem : Memory
  /-- The history of bus events, oldest first (R70) -/
  bus : List BusEvent
  /-- The record of faults reported, oldest first (R225) -/
  faults : List Fault
  /-- The record of refused host writes, oldest first (R131) -/
  refusals : List Refusal
  /-- The calls of the I/O primitives, oldest first (R68); the model's own -/
  ports : List PortEvent
  /-- F53_POLICY (R7), taken as an argument that stands in the state; the model's own -/
  f53 : F53Policy
  /-- How many free values have been drawn; the model's own -/
  draws : Nat
  deriving DecidableEq, Repr

/-- The machine right after construction, which runs `reset()` (R21, R250): every ProcessorState field zero, no event yet,
and no memory cell listed (log entry 1). -/
def State.reset : State where
  a := 0x00#8
  f := 0x00#8
  b := 0x00#8
  c := 0x00#8
  d := 0x00#8
  e := 0x00#8
  h := 0x00#8
  l := 0x00#8
  shadowA := 0x00#8
  shadowF := 0x00#8
  shadowB := 0x00#8
  shadowC := 0x00#8
  shadowD := 0x00#8
  shadowE := 0x00#8
  shadowH := 0x00#8
  shadowL := 0x00#8
  ixh := 0x00#8
  ixl := 0x00#8
  iyh := 0x00#8
  iyl := 0x00#8
  sp := 0x0000#16
  pc := 0x0000#16
  i := 0x00#8
  r := 0x00#8
  iff1 := false
  iff2 := false
  im := .im0
  halted := false
  tStates := 0
  mem := []
  bus := []
  faults := []
  refusals := []
  ports := []
  f53 := Config.f53Policy
  draws := 0

end Sys2Proof.Machine
end

