-- ==== Sys2Proof/Machine/Ops.lean ====
section
/-! DEFINITION. The named operations over memory and registers: memory cells in their canonical form (R61, R62), register and pair access by an explicit table
(R22, R23, R28), the byte and word memory primitives (R63, R64), the recorded bus accesses (R70), the fetches (R111 to R114), the refresh counter (R112),
T (R115), the halted step (R122), and the one exception (R221). -/

namespace Sys2Proof.Machine

/-- The byte at an address: the listed cell's, else `Config.unlistedByte` (R62). -/
def Memory.read : Memory → Nat → Byte
  | [], _ => Config.unlistedByte
  | (k, v) :: rest, a => if k = a then v else Memory.read rest a

/-- Store a byte at an address, keeping the canonical form: storing `Config.unlistedByte` removes the cell (R62). -/
def Memory.write : Memory → Nat → Byte → Memory
  | [], a, v => if v = Config.unlistedByte then [] else [(a, v)]
  | (k, w) :: rest, a, v =>
    if a < k then (if v = Config.unlistedByte then (k, w) :: rest else (a, v) :: (k, w) :: rest)
    else if a = k then (if v = Config.unlistedByte then rest else (a, v) :: rest)
    else (k, w) :: Memory.write rest a v

/-- The canonical form from address `lo` on: addresses strictly rising from `lo`, below 2^16 (R61), no cell holding what an
unlisted address reads as. -/
def Memory.wfFrom : Nat → Memory → Bool
  | _, [] => true
  | lo, (k, v) :: rest => decide (lo ≤ k) && decide (k < 2 ^ 16) && (v != Config.unlistedByte) && Memory.wfFrom (k + 1) rest

/-- The canonical form of memory. -/
def Memory.wf (m : Memory) : Bool := Memory.wfFrom 0 m

/-- The value of a register (R9, R28). -/
def State.readReg8 (x : Reg8) (s : State) : Byte :=
  match x with
  | .a => s.a
  | .f => s.f
  | .b => s.b
  | .c => s.c
  | .d => s.d
  | .e => s.e
  | .h => s.h
  | .l => s.l
  | .shadowA => s.shadowA
  | .shadowF => s.shadowF
  | .shadowB => s.shadowB
  | .shadowC => s.shadowC
  | .shadowD => s.shadowD
  | .shadowE => s.shadowE
  | .shadowH => s.shadowH
  | .shadowL => s.shadowL
  | .ixh => s.ixh
  | .ixl => s.ixl
  | .iyh => s.iyh
  | .iyl => s.iyl
  | .i => s.i
  | .r => s.r

/-- Store a register; every other field keeps its value (R9, R22, R28). -/
def State.writeReg8 (x : Reg8) (v : Byte) (s : State) : State :=
  match x with
  | .a => { s with a := v }
  | .f => { s with f := v }
  | .b => { s with b := v }
  | .c => { s with c := v }
  | .d => { s with d := v }
  | .e => { s with e := v }
  | .h => { s with h := v }
  | .l => { s with l := v }
  | .shadowA => { s with shadowA := v }
  | .shadowF => { s with shadowF := v }
  | .shadowB => { s with shadowB := v }
  | .shadowC => { s with shadowC := v }
  | .shadowD => { s with shadowD := v }
  | .shadowE => { s with shadowE := v }
  | .shadowH => { s with shadowH := v }
  | .shadowL => { s with shadowL := v }
  | .ixh => { s with ixh := v }
  | .ixl => { s with ixl := v }
  | .iyh => { s with iyh := v }
  | .iyl => { s with iyl := v }
  | .i => { s with i := v }
  | .r => { s with r := v }

/-- The high byte's register of a pair (R23). -/
def Pair.high : Pair → Reg8
  | .af => .a
  | .bc => .b
  | .de => .d
  | .hl => .h
  | .shadowAF => .shadowA
  | .shadowBC => .shadowB
  | .shadowDE => .shadowD
  | .shadowHL => .shadowH
  | .ix => .ixh
  | .iy => .iyh

/-- The low byte's register of a pair (R23). -/
def Pair.low : Pair → Reg8
  | .af => .f
  | .bc => .c
  | .de => .e
  | .hl => .l
  | .shadowAF => .shadowF
  | .shadowBC => .shadowC
  | .shadowDE => .shadowE
  | .shadowHL => .shadowL
  | .ix => .ixl
  | .iy => .iyl

/-- Reading a pair gives `(high << 8) | low` (R23). -/
def State.readPair (p : Pair) (s : State) : Word := joinBytes (s.readReg8 p.high) (s.readReg8 p.low)

/-- Writing a pair decomposes into its halves, high byte first (R23). -/
def State.writePair (p : Pair) (v : Word) (s : State) : State := (s.writeReg8 p.high (hiByte v)).writeReg8 p.low (loByte v)

/-- `MemRead(a, 1)`, `readByte` (R11, R62, R63). It has no side effect. -/
def State.readByte (a : Word) (s : State) : Byte := s.mem.read a.toNat

/-- `MemWrite(a, 1, v)`, `writeByte` (R11, R62, R63). -/
def State.writeByte (a : Word) (v : Byte) (s : State) : State := { s with mem := s.mem.write a.toNat v }

/-- `MemRead(a, 2)`, `readWord`: little-endian, `a + 1` modulo 2^16 (R11, R64). -/
def State.readWord (a : Word) (s : State) : Word := joinBytes (s.readByte (a + 1#16)) (s.readByte a)

/-- `MemWrite(a, 2, v)`, `writeWord`: low byte, then high byte at `a + 1` modulo 2^16 (R11, R64). -/
def State.writeWord (a : Word) (v : Word) (s : State) : State := (s.writeByte a (loByte v)).writeByte (a + 1#16) (hiByte v)

/-- Bytes stored at consecutive addresses modulo 2^16; no bus event (it is the host's change of memory, R71(c)). -/
def State.storeBytes (a : Word) : List Byte → State → State
  | [], s => s
  | v :: vs, s => State.storeBytes (a + 1#16) vs (s.writeByte a v)

/-- Add an event at the end of the one history list (R70). -/
def State.record (ev : BusEvent) (s : State) : State := { s with bus := s.bus ++ [ev] }

/-- The data read of an instruction, recorded (R70, R203). -/
def State.dataRead (a : Word) (s : State) : Byte × State := (s.readByte a, s.record (.read a (s.readByte a)))

/-- The data write of an instruction, recorded (R70, R201). -/
def State.dataWrite (a : Word) (v : Byte) (s : State) : State := (s.writeByte a v).record (.write a v)

/-- `Fetch8()` (R113): the byte at PC, recorded, and PC advanced by 1 modulo 2^16. -/
def State.fetch8 (s : State) : Byte × State :=
  (s.readByte s.pc, { s.record (.fetch s.pc (s.readByte s.pc)) with pc := s.pc + 1#16 })

/-- `Fetch16()` (R114): two operand fetches, low byte first. -/
def State.fetch16 (s : State) : Word × State :=
  let lo := s.fetch8
  let hi := lo.2.fetch8
  (joinBytes hi.1 lo.1, hi.2)

/-- R.count, the bits 6:0 of R (R35). -/
def refreshCount (r : Byte) : BitVec 7 := r.extractLsb' 0 7

/-- R.hold, bit 7 of R (R35). -/
def refreshHold (r : Byte) : BitVec 1 := r.extractLsb' 7 1

/-- `R[7] : ((R[6:0] + 1) mod 2^7)` (R112). -/
def refreshNext (r : Byte) : Byte := refreshHold r ++ (refreshCount r + 1#7)

/-- The refresh increment of a step (R112, R122). -/
def State.refresh (s : State) : State := { s with r := refreshNext s.r }

/-- `T <- T + n` (R12, R115). -/
def State.addTStates (n : Nat) (s : State) : State := { s with tStates := s.tStates + n }

/-- The opcode fetch of a step and its refresh increment (R110 lines (1) to (3), R111, R112). -/
def State.fetchOpcode (s : State) : Byte × State :=
  let op := s.fetch8
  (op.1, op.2.refresh)

/-- The operand fetches of an operation, in increasing address order (R70, R87, R113, R114), and the instruction they complete. -/
def State.fetchOperands (o : Operation) (s : State) : Instr × State :=
  match o.shape with
  | .implied i => (i, s)
  | .imm8 build =>
    let n := s.fetch8
    (build n.1, n.2)
  | .imm16 build =>
    let nn := s.fetch16
    (build nn.1, nn.2)

/-- `HaltedStep()` (R122): R.count advances, T grows by 4, nothing else changes and no event is recorded. -/
def State.haltedStep (s : State) : State := s.refresh.addTStates 4

/-- Raise DecodeFault (R110 `Undefined` branch, R221): PC and R get back the values they had before the step, and the fault
is recorded (R225). There is no vector, no saved register and no return from it (R223, R225). -/
def State.raiseDecodeFault (pc0 : Word) (r0 : Byte) (op : Byte) (s : State) : State :=
  { s with pc := pc0, r := r0, faults := s.faults ++ [.decodeFault pc0 op] }

/-- The cause code of a fault (R220, D23). -/
def Fault.causeCode : Fault → Nat
  | .decodeFault _ _ => 1

end Sys2Proof.Machine
end

