-- ==== Sys2Proof/Machine/Flags.lean ====
section
/-! DEFINITION. The flags: their places in F (R30), reading and writing one of them (R31), F5 and F3 under F53_POLICY (R7), and every flag computation the
spec gives: INC8 and DEC8 (R140, R141), the 16-bit add (R162) and the accumulator rotates (R190, R191). -/

namespace Sys2Proof.Machine

/-- The bit of F a flag is (R30). -/
def Flag.pos : Flag → Nat
  | .s => 7
  | .z => 6
  | .f5 => 5
  | .h => 4
  | .f3 => 3
  | .pv => 2
  | .n => 1
  | .c => 0

/-- The mask column of R30. -/
def Flag.mask (x : Flag) : Byte := 1#8 <<< x.pos

/-- A named flag of a flags byte (R31). -/
def getFlag (f : Byte) (x : Flag) : Bool := f.getLsbD x.pos

/-- A flags byte with one named flag set to `v`, the other seven kept (R31). -/
def setFlag (f : Byte) (x : Flag) (v : Bool) : Byte := if v then f ||| x.mask else f &&& ~~~x.mask

/-- `F.x`. -/
def State.flag (x : Flag) (s : State) : Bool := getFlag s.f x

/-- `F.x <- v` (R9, R31). -/
def State.setFlagBit (x : Flag) (v : Bool) (s : State) : State := { s with f := setFlag s.f x v }

/-- What is written into F5 or F3 where the result bit is `r` (R7, D6): a copy of it under COPY_RESULT, the free draw of number
`draw` under ANY. -/
def f53Value (policy : F53Policy) (draw : Nat) (r : Bool) : Bool :=
  match policy with
  | .copyResult => r
  | .any => Config.freeBit draw

/-- How many free values one write of F5 and F3 draws (R7). -/
def f53Draws (policy : F53Policy) : Nat :=
  match policy with
  | .copyResult => 0
  | .any => 2

/-- The writes of F5 and F3 by an instruction that computes flags (R7, D6), from the result bits `r5` and `r3`. -/
def State.writeF53 (r5 r3 : Bool) (s : State) : State :=
  { s with
    f := setFlag (setFlag s.f .f5 (f53Value s.f53 s.draws r5)) .f3 (f53Value s.f53 (s.draws + 1) r3), draws := s.draws + f53Draws s.f53 }

/-- The flag block of INC8 on the operand `v` (R140): S, Z, F5, H, F3 and PV written, N cleared, C kept. -/
def State.inc8Flags (v : Byte) (s : State) : State :=
  let r := v + 1#8
  ((((s.setFlagBit .s (r.getLsbD 7)).setFlagBit .z (r == 0x00#8)).writeF53 (r.getLsbD 5) (r.getLsbD 3)
    |>.setFlagBit .h (v.extractLsb' 0 4 == 0xF#4)).setFlagBit .pv (v == 0x7F#8)).setFlagBit .n false

/-- The flag block of DEC8 on the operand `v` (R141): S, Z, F5, H, F3 and PV written, N set, C kept. -/
def State.dec8Flags (v : Byte) (s : State) : State :=
  let r := v - 1#8
  ((((s.setFlagBit .s (r.getLsbD 7)).setFlagBit .z (r == 0x00#8)).writeF53 (r.getLsbD 5) (r.getLsbD 3)
    |>.setFlagBit .h (v.extractLsb' 0 4 == 0x0#4)).setFlagBit .pv (v == 0x80#8)).setFlagBit .n true

/-- The flag block of the 16-bit add of `a` and `b` (R162): F5, H, F3 and C written, N cleared, S, Z and PV kept. -/
def State.add16Flags (a b : Word) (s : State) : State :=
  let r := a + b
  (((s.writeF53 (r.getLsbD 13) (r.getLsbD 11)).setFlagBit .h (decide (0x1000 ≤ a.toNat % 0x1000 + b.toNat % 0x1000))).setFlagBit .n false).setFlagBit .c
    (decide (0x10000 ≤ a.toNat + b.toNat))

/-- The flag block of an accumulator rotate with result `r` and outgoing bit `c` (R190, R191): C, F5 and F3 written, H and N
cleared, S, Z and PV kept. -/
def State.rotateFlags (r : Byte) (c : Bool) (s : State) : State :=
  (((s.setFlagBit .c c).setFlagBit .h false).setFlagBit .n false).writeF53 (r.getLsbD 5) (r.getLsbD 3)

end Sys2Proof.Machine
end

