-- ==== Sys2Proof/Machine/Arith16.lean ====
section
/-! DEFINITION. 16-bit increment, decrement and add: INC BC (R160), DEC BC (R161), ADD HL,BC (R162). -/

namespace Sys2Proof.Machine

/-- INC BC (R160): no flag is written. -/
def execIncBC (s : State) : Host.Outcome State Fault Refusal := .next (s.writePair .bc (s.readPair .bc + 1#16))

/-- DEC BC (R161): no flag is written. -/
def execDecBC (s : State) : Host.Outcome State Fault Refusal := .next (s.writePair .bc (s.readPair .bc - 1#16))

/-- `dst <- dst + src` with the flags of the 16-bit add (R162). -/
def State.add16 (dst src : Pair) (s : State) : State :=
  let a := s.readPair dst
  let b := s.readPair src
  (s.writePair dst (a + b)).add16Flags a b

/-- ADD HL,BC (R162). -/
def execAddHLBC (s : State) : Host.Outcome State Fault Refusal := .next (s.add16 .hl .bc)

end Sys2Proof.Machine
end

