-- ==== Sys2Proof/Machine/Control.lean ====
section
/-! DEFINITION. The two instructions that act on the sequencer itself: NOP (R120) and HALT (R121). A meaning is the body `operation()` that line (4) of R110
runs: PC, R and the operand bytes are already fetched, and T is added after it. -/

namespace Sys2Proof.Machine

/-- NOP: no operation (R120). -/
def execNop (s : State) : Host.Outcome State Fault Refusal := .next s

/-- HALT: enter the halted state (R121). PC stays at the address after the HALT. -/
def execHalt (s : State) : Host.Outcome State Fault Refusal := .next { s with halted := true }

end Sys2Proof.Machine
end

