-- ==== Sys2Proof/Machine/Exchange.lean ====
section
/-! DEFINITION. Register exchange: EX AF,AF' (R180), the only switch between the register banks (R26). -/

namespace Sys2Proof.Machine

/-- The exchange of two pairs: both are read before either is written (R180). -/
def State.exchange (p q : Pair) (s : State) : State :=
  let t := s.readPair p
  (s.writePair p (s.readPair q)).writePair q t

/-- EX AF,AF' (R180). -/
def execExAFAF (s : State) : Host.Outcome State Fault Refusal := .next (s.exchange .af .shadowAF)

end Sys2Proof.Machine
end

