-- ==== Sys2Proof/Machine/IncDec8.lean ====
section
/-! DEFINITION. 8-bit increment and decrement: INC8 and DEC8 (R140, R141) and the four instructions over them (R144 to R147). -/

namespace Sys2Proof.Machine

/-- `X <- INC8(X)` (R140): the result wraps modulo 2^8. -/
def State.inc8 (x : Reg8) (s : State) : State :=
  let v := s.readReg8 x
  (s.inc8Flags v).writeReg8 x (v + 1#8)

/-- `X <- DEC8(X)` (R141): the result wraps modulo 2^8. -/
def State.dec8 (x : Reg8) (s : State) : State :=
  let v := s.readReg8 x
  (s.dec8Flags v).writeReg8 x (v - 1#8)

/-- INC B (R144). -/
def execIncB (s : State) : Host.Outcome State Fault Refusal := .next (s.inc8 .b)

/-- DEC B (R145). -/
def execDecB (s : State) : Host.Outcome State Fault Refusal := .next (s.dec8 .b)

/-- INC C (R146): the register C, not the carry flag. -/
def execIncC (s : State) : Host.Outcome State Fault Refusal := .next (s.inc8 .c)

/-- DEC C (R147): the register C, not the carry flag. -/
def execDecC (s : State) : Host.Outcome State Fault Refusal := .next (s.dec8 .c)

end Sys2Proof.Machine
end

