-- ==== Sys2Proof/Machine/Operands.lean ====
section
/-! DEFINITION. The addressing modes of the fragment (R205) and the loads over them: register, register pair, 8-bit immediate, 16-bit immediate, register
indirect. An immediate is already fetched when an operation runs (log entry 3). -/

namespace Sys2Proof.Machine

/-- Where an 8-bit load takes its value from (R205). -/
inductive Source8 where
  | reg (x : Reg8)
  | imm (n : Byte)
  | indirect (p : Pair)
  deriving DecidableEq, Repr

/-- Where an 8-bit load puts its value (R205). -/
inductive Dest8 where
  | reg (x : Reg8)
  | indirect (p : Pair)
  deriving DecidableEq, Repr

/-- Where a 16-bit load takes its value from (R205). -/
inductive Source16 where
  | pair (p : Pair)
  | imm (nn : Word)
  deriving DecidableEq, Repr

/-- The effective address of the register-indirect mode: the pair, 16 bits, no offset (R205). -/
def State.indirectAddress (p : Pair) (s : State) : Word := s.readPair p

/-- The value of an 8-bit source and the state after reading it; a register-indirect read is one recorded data read. -/
def State.readSource8 (x : Source8) (s : State) : Byte × State :=
  match x with
  | .reg x => (s.readReg8 x, s)
  | .imm n => (n, s)
  | .indirect p => s.dataRead (s.indirectAddress p)

/-- Store into an 8-bit destination; a register-indirect write is one recorded data write. -/
def State.writeDest8 (x : Dest8) (v : Byte) (s : State) : State :=
  match x with
  | .reg x => s.writeReg8 x v
  | .indirect p => s.dataWrite (s.indirectAddress p) v

/-- The value of a 16-bit source. -/
def State.readSource16 (x : Source16) (s : State) : Word :=
  match x with
  | .pair p => s.readPair p
  | .imm nn => nn

/-- An 8-bit load: the source is read before the destination is written; no flag is written (R205). -/
def State.load8 (dst : Dest8) (src : Source8) (s : State) : State :=
  let v := s.readSource8 src
  v.2.writeDest8 dst v.1

/-- A 16-bit load into a pair; no flag is written (R205). -/
def State.load16 (dst : Pair) (src : Source16) (s : State) : State := s.writePair dst (s.readSource16 src)

end Sys2Proof.Machine
end

