-- ==== Sys2Proof/Machine/Loads.lean ====
section
/-! DEFINITION. Loads and stores over the addressing modes of R205: LD BC,nn (R200), LD (BC),A (R201), LD B,n (R202), LD A,(BC) (R203), LD C,n (R204). -/

namespace Sys2Proof.Machine

/-- LD BC,nn (R200): C gets the low byte, B the high byte. -/
def execLdBCnn (nn : Word) (s : State) : Host.Outcome State Fault Refusal := .next (s.load16 .bc (.imm nn))

/-- LD (BC),A (R201). -/
def execLdIndBCA (s : State) : Host.Outcome State Fault Refusal := .next (s.load8 (.indirect .bc) (.reg .a))

/-- LD B,n (R202). -/
def execLdBn (n : Byte) (s : State) : Host.Outcome State Fault Refusal := .next (s.load8 (.reg .b) (.imm n))

/-- LD A,(BC) (R203). -/
def execLdAIndBC (s : State) : Host.Outcome State Fault Refusal := .next (s.load8 (.reg .a) (.indirect .bc))

/-- LD C,n (R204). -/
def execLdCn (n : Byte) (s : State) : Host.Outcome State Fault Refusal := .next (s.load8 (.reg .c) (.imm n))

end Sys2Proof.Machine
end

