-- ==== Sys2Proof/Machine/Rotate.lean ====
section
/-! DEFINITION. Accumulator rotates: RLCA (R190) and RRCA (R191). -/

namespace Sys2Proof.Machine

/-- `A[6:0] : A[7]` (R190). -/
def rotateLeftByte (v : Byte) : Byte := v.extractLsb' 0 7 ++ v.extractLsb' 7 1

/-- `A[0] : A[7:1]` (R191). -/
def rotateRightByte (v : Byte) : Byte := v.extractLsb' 0 1 ++ v.extractLsb' 1 7

/-- RLCA (R190): C is the old A[7]; the old carry does not enter the result. -/
def execRlca (s : State) : Host.Outcome State Fault Refusal :=
  .next (({ s with a := rotateLeftByte s.a } : State).rotateFlags (rotateLeftByte s.a) (s.a.getLsbD 7))

/-- RRCA (R191): C is the old A[0]; the old carry does not enter the result. -/
def execRrca (s : State) : Host.Outcome State Fault Refusal :=
  .next (({ s with a := rotateRightByte s.a } : State).rotateFlags (rotateRightByte s.a) (s.a.getLsbD 0))

end Sys2Proof.Machine
end

