-- ==== Sys2Proof/Machine/Sequencer.lean ====
section
/-! DEFINITION. The operation sequencer: one call of `executeInstruction()` (R110), with the state after it whatever its outcome (R117). -/

namespace Sys2Proof.Machine

/-- The outcome of a step (R117). `refused` is the form's third outcome; no instruction of the block gives it. -/
inductive StepOutcome where
  | ok
  | fault (f : Fault)
  | refused (r : Refusal)
  deriving DecidableEq, Repr

/-- What a call of `executeInstruction()` returns, and the state it leaves. -/
structure StepResult where
  outcome : StepOutcome
  state : State
  deriving DecidableEq, Repr

/-- What the engine does with a fetched opcode byte's table entry (R110 lines (4) and (5)). `s` is the state before the step,
to which a DecodeFault returns PC and R; `s1` the state after the opcode fetch. -/
def runEntry (entry : TableEntry) (op : Byte) (s s1 : State) : StepResult :=
  match entry with
  | .undefined => ⟨.fault (.decodeFault s.pc op), s1.raiseDecodeFault s.pc s.r op⟩
  | .defined o cost =>
    let fetched := s1.fetchOperands o
    match exec fetched.1 fetched.2 with
    | .next s3 => ⟨.ok, s3.addTStates cost⟩
    | .fault f => ⟨.fault f, s⟩
    | .refused r => ⟨.refused r, s⟩

/-- One step (R110). -/
def executeInstruction (s : State) : StepResult :=
  if s.halted then ⟨.ok, s.haltedStep⟩
  else
    let fetched := s.fetchOpcode
    runEntry (dispatchTable fetched.1) fetched.1 s fetched.2

/-- A step's result as one of the host's three outcomes: a fault or a refusal leaves no next state (log entry 5). -/
def StepResult.toOutcome (x : StepResult) : Host.Outcome State Fault Refusal :=
  match x.outcome with
  | .ok => .next x.state
  | .fault f => .fault f
  | .refused r => .refused r

/-- The state with a program word placed where the next step fetches: its bytes at PC and on, modulo 2^16, and the engine
Running, since a halted step fetches nothing (R122; log entry 6). -/
def State.placeWord (nbits w : Nat) (s : State) : State := { s.storeBytes s.pc (tableBytes nbits w) with halted := false }

end Sys2Proof.Machine
end

