-- ==== Sys2Proof/Machine/Step.lean ====
section
/-! DEFINITION. The machine's step (R110), and the placing of an instruction where it fetches. -/

namespace Sys2Proof.Machine

/-- One step, as one of the three outcomes (R110, R117). -/
def step (s : State) : Host.Outcome State Fault Refusal := (executeInstruction s).toOutcome

/-- `s` with the instruction of the table's bits stored where `step` fetches next (log entry 6). -/
def State.withFetchWord (s : State) (nbits w : Nat) : State := s.placeWord nbits w

end Sys2Proof.Machine
end

