-- ==== Sys2Proof/Machine/HostContract.lean ====
section
/-! DEFINITION. The host contract (R130): the calls a host makes between steps, with their truncation (R22) and the one refusal (R131), and the questions it may
ask (R27, R38, R46). halted and T have no writing call (D16). -/

namespace Sys2Proof.Machine

/-- The 2-bit value of an interrupt mode (R37). -/
def InterruptMode.toNat : InterruptMode → Nat
  | .im0 => 0
  | .im1 => 1
  | .im2 => 2

/-- A call that may change the state. Values are the host's numbers, of any size (R22). -/
inductive HostCall where
  | reset
  | executeInstruction
  | resetTStates
  | writeReg8 (x : Reg8) (v : Nat)
  | writePair (p : Pair) (v : Nat)
  | writePC (v : Nat)
  | writeSP (v : Nat)
  | writeIff1 (v : Nat)
  | writeIff2 (v : Nat)
  | writeIM (v : Nat)
  | writeFlag (x : Flag) (v : Nat)
  | setFlags (v : Nat)
  | writeMemory (a : Word) (v : Nat)
  deriving DecidableEq, Repr

/-- A question about the state. -/
inductive HostQuery where
  | readReg8 (x : Reg8)
  | readPair (p : Pair)
  | readPC
  | readSP
  | readIff1
  | readIff2
  | readIM
  | readFlag (x : Flag)
  | getFlags
  | halted
  | tStates
  | readMemory (a : Word)
  deriving DecidableEq, Repr

/-- `reset()` (R250): every ProcessorState field zero, in any state (R252). Memory, the histories and the model's own fields are
no part of the ProcessorState and stay (R60, R250). -/
def State.resetProcessor (s : State) : State :=
  { State.reset with
    mem := s.mem, bus := s.bus, faults := s.faults, refusals := s.refusals, ports := s.ports, f53 := s.f53, draws := s.draws }

/-- `resetTStates()` (R251). -/
def State.resetTStates (s : State) : State := { s with tStates := 0 }

/-- The host's write of IM (R37, R131): 0, 1 and 2 are stored; 3 is refused and the refusal recorded. A wider number is
truncated to the field's 2 bits first (log entry 8). -/
def State.hostWriteIM (v : Nat) (s : State) : StepResult :=
  match v % 4 with
  | 0 => ⟨.ok, { s with im := .im0 }⟩
  | 1 => ⟨.ok, { s with im := .im1 }⟩
  | 2 => ⟨.ok, { s with im := .im2 }⟩
  | _ => ⟨.refused .interruptModeThree, { s with refusals := s.refusals ++ [.interruptModeThree] }⟩

/-- A host call and what it leaves (R130). -/
def hostCall (call : HostCall) (s : State) : StepResult :=
  match call with
  | .reset => ⟨.ok, s.resetProcessor⟩
  | .executeInstruction => executeInstruction s
  | .resetTStates => ⟨.ok, s.resetTStates⟩
  | .writeReg8 x v => ⟨.ok, s.writeReg8 x (BitVec.ofNat 8 v)⟩
  | .writePair p v => ⟨.ok, s.writePair p (BitVec.ofNat 16 v)⟩
  | .writePC v => ⟨.ok, { s with pc := BitVec.ofNat 16 v }⟩
  | .writeSP v => ⟨.ok, { s with sp := BitVec.ofNat 16 v }⟩
  | .writeIff1 v => ⟨.ok, { s with iff1 := decide (v % 2 = 1) }⟩
  | .writeIff2 v => ⟨.ok, { s with iff2 := decide (v % 2 = 1) }⟩
  | .writeIM v => s.hostWriteIM v
  | .writeFlag x v => ⟨.ok, s.setFlagBit x (decide (v % 2 = 1))⟩
  | .setFlags v => ⟨.ok, { s with f := BitVec.ofNat 8 v }⟩
  | .writeMemory a v => ⟨.ok, s.writeByte a (BitVec.ofNat 8 v)⟩

/-- The answer to a host's question, as a number (R27, R31, R38, R46). Asking changes nothing. -/
def hostQuery (q : HostQuery) (s : State) : Nat :=
  match q with
  | .readReg8 x => (s.readReg8 x).toNat
  | .readPair p => (s.readPair p).toNat
  | .readPC => s.pc.toNat
  | .readSP => s.sp.toNat
  | .readIff1 => s.iff1.toNat
  | .readIff2 => s.iff2.toNat
  | .readIM => s.im.toNat
  | .readFlag x => (s.flag x).toNat
  | .getFlags => s.f.toNat
  | .halted => s.halted.toNat
  | .tStates => s.tStates
  | .readMemory a => (s.readByte a).toNat

end Sys2Proof.Machine
end

