-- ==== Sys2Proof/Machine/Ports.lean ====
section
/-! DEFINITION. The I/O primitives (R11, R68): part of the block's boundary, called by no step (I16). What a port answers is the I/O collaborator's and is not
given, so a read's byte is a free value (log entry 7). -/

namespace Sys2Proof.Machine

/-- `IORead(port)` (R68): the collaborator's byte, and the state in which the call is listed. -/
def State.ioRead (port : Byte) (s : State) : Byte × State :=
  let v := Config.freePortByte s.draws port
  (v, { s with ports := s.ports ++ [.read port v], draws := s.draws + 1 })

/-- `IOWrite(port, v)` (R68): the call is listed; nothing of the ProcessorState or of memory changes. -/
def State.ioWrite (port : Byte) (v : Byte) (s : State) : State := { s with ports := s.ports ++ [.write port v] }

end Sys2Proof.Machine
end

