-- ==== Sys2Proof/Machine/Run.lean ====
section
/-! DEFINITION. The end of a run (R119). -/

namespace Sys2Proof.Machine

/-- How a run stands (R119). -/
inductive RunEnd where
  /-- (a) Ended at the first Ok step after which halted = 1. -/
  | clean (s : State)
  /-- (b) Ended at the first step that faulted, with the state that step left. -/
  | faulted (s : State) (f : Fault)
  /-- (c) Not ended. -/
  | notEnded (s : State)
  deriving DecidableEq, Repr

/-- A run of at most `n` steps from a launch state (R119). No instruction of the block gives a refusal, so that arm is not
reached (it would leave the run not ended). -/
def run : Nat → State → RunEnd
  | 0, s => .notEnded s
  | n + 1, s =>
    let x := executeInstruction s
    match x.outcome with
    | .ok => if x.state.halted then .clean x.state else run n x.state
    | .fault f => .faulted x.state f
    | .refused _ => .notEnded x.state

end Sys2Proof.Machine
end

