-- ==== Sys2Proof/Safety.lean ====
section
/-! DEFINITION. The terms claims use: the opcode at PC, the 239 undefined bytes, the bytes an instruction occupies, the invariant of memory, a bus history that memory explains
(R70, R71), and the accesses the rules give a step (R67). -/

namespace Sys2Proof.Machine

/-- The opcode byte the next step fetches, if it is not a halted step (R111). -/
def State.opcodeAtPC (s : State) : Byte := s.readByte s.pc

/-- The 239 bytes R93 calls `Undefined`. -/
def UndefinedByte (op : Byte) : Prop := (0x10 ≤ op.toNat ∧ op.toNat ≤ 0x75) ∨ (0x77 ≤ op.toNat ∧ op.toNat ≤ 0xFF)

/-- The bytes of an instruction, what they decode to, and the cost of its dispatch-table entry (R86, R90). -/
def EncodedAs (i : Instr) (bytes : List Byte) (cost : Nat) : Prop :=
  encode i = bytes ∧ decode bytes = .ok (i, []) ∧ dispatchTable i.operation.opcode = .defined i.operation cost

/-- The `n` bytes from an address on, modulo 2^16. -/
def State.bytesFrom (s : State) : Nat → Word → List Byte
  | 0, _ => []
  | n + 1, a => s.readByte a :: s.bytesFrom n (a + 1#16)

/-- Memory keeps its canonical form (R61, R62). -/
def State.Inv (s : State) : Prop := s.mem.wf = true

/-- A bus history run over a launch memory (R71(a)): each fetch or read must give the byte the latest write to its address left, or the
launch byte; the result is the memory after it, or none where a fetch or read gives another byte. -/
def replay : Memory → List BusEvent → Option Memory
  | m, [] => some m
  | m, .fetch a v :: rest => if m.read a.toNat = v then replay m rest else none
  | m, .read a v :: rest => if m.read a.toNat = v then replay m rest else none
  | m, .write a v :: rest => replay (m.write a.toNat v) rest

/-- The operand fetches of an instruction whose opcode stands at `pc0` (R67, R70). -/
def operandEvents (pc0 : Word) : Instr → List BusEvent
  | .ldBCnn nn => [.fetch (pc0 + 1#16) (loByte nn), .fetch (pc0 + 2#16) (hiByte nn)]
  | .ldBn n | .ldCn n => [.fetch (pc0 + 1#16) n]
  | .nop | .ldIndBCA | .incBC | .incB | .decB | .rlca | .exAFAF | .addHLBC | .ldAIndBC | .decBC | .incC | .decC | .rrca | .halt => []

/-- The data access of an instruction in a state (R67, R70). -/
def dataEvents (s : State) : Instr → List BusEvent
  | .ldIndBCA => [.write (s.readPair .bc) s.a]
  | .ldAIndBC => [.read (s.readPair .bc) (s.readByte (s.readPair .bc))]
  | .nop | .ldBCnn _ | .ldBn _ | .ldCn _ | .incBC | .incB | .decB | .rlca | .exAFAF | .addHLBC | .decBC | .incC | .decC | .rrca | .halt => []

/-- A state with the interrupt state replaced (R34, R36, R37). -/
def State.withInterruptState (i : Byte) (iff1 iff2 : Bool) (im : InterruptMode) (s : State) : State :=
  { s with i := i, iff1 := iff1, iff2 := iff2, im := im }

/-- An outcome with its next state replaced by a function of it. -/
def mapNext (g : State → State) : Host.Outcome State Fault Refusal → Host.Outcome State Fault Refusal
  | .next s => .next (g s)
  | .fault f => .fault f
  | .refused r => .refused r

/-- Every byte of memory reads in `t` as it reads in `s`. -/
def SameMemory (s t : State) : Prop := ∀ a : Word, t.readByte a = s.readByte a

/-- `t` differs from `s` in 8-bit registers at most: SP, PC, IFF1, IFF2, IM, halted, T, memory and every other field are `s`'s. -/
def SameButReg8 (s t : State) : Prop :=
  t = { s with
    a := t.a, f := t.f, b := t.b, c := t.c, d := t.d, e := t.e, h := t.h, l := t.l,
    shadowA := t.shadowA, shadowF := t.shadowF, shadowB := t.shadowB, shadowC := t.shadowC,
    shadowD := t.shadowD, shadowE := t.shadowE, shadowH := t.shadowH, shadowL := t.shadowL,
    ixh := t.ixh, ixl := t.ixl, iyh := t.iyh, iyl := t.iyl, i := t.i, r := t.r }

/-- F5 and F3 of `t` as an instruction run in `s` writes them from result bits `r5` and `r3` (R7): copies under COPY_RESULT, the next two
free draws under ANY. How the draws are numbered, F5's first, is the model's choice (log entry 2). -/
def F53Written (s t : State) (r5 r3 : Bool) : Prop :=
  (s.f53 = .copyResult → t.flag .f5 = r5 ∧ t.flag .f3 = r3 ∧ t.draws = s.draws) ∧
  (s.f53 = .any → t.flag .f5 = Config.freeBit s.draws ∧ t.flag .f3 = Config.freeBit (s.draws + 1) ∧ t.draws = s.draws + 2)

/-- R140 as numbers: `r` is INC8 of `v` and the flags of `t` are those INC8 leaves, C as in `s`. -/
def Inc8Result (v r : Byte) (s t : State) : Prop :=
  r.toNat = (v.toNat + 1) % 256 ∧ t.flag .s = decide (128 ≤ r.toNat) ∧ t.flag .z = decide (r.toNat = 0) ∧
  t.flag .h = decide (v.toNat % 16 = 15) ∧ t.flag .pv = decide (v.toNat = 127) ∧ t.flag .n = false ∧ t.flag .c = s.flag .c ∧
  F53Written s t (r.toNat.testBit 5) (r.toNat.testBit 3)

/-- R141 as numbers: `r` is DEC8 of `v` and the flags of `t` are those DEC8 leaves, C as in `s`. -/
def Dec8Result (v r : Byte) (s t : State) : Prop :=
  r.toNat = (v.toNat + 255) % 256 ∧ t.flag .s = decide (128 ≤ r.toNat) ∧ t.flag .z = decide (r.toNat = 0) ∧
  t.flag .h = decide (v.toNat % 16 = 0) ∧ t.flag .pv = decide (v.toNat = 128) ∧ t.flag .n = true ∧ t.flag .c = s.flag .c ∧
  F53Written s t (r.toNat.testBit 5) (r.toNat.testBit 3)

/-- The flags both rotates leave (R190, R191), C apart: H and N cleared, S, Z and PV kept, F5 and F3 from the new A. -/
def RotateFlagsResult (s t : State) : Prop :=
  t.flag .h = false ∧ t.flag .n = false ∧ t.flag .s = s.flag .s ∧ t.flag .z = s.flag .z ∧ t.flag .pv = s.flag .pv ∧
  F53Written s t (t.a.toNat.testBit 5) (t.a.toNat.testBit 3)

/-- R112 on the byte R: bits 6:0 count on modulo 128, bit 7 is held. -/
def RefreshedOnce (r r' : Byte) : Prop := r'.toNat % 128 = (r.toNat % 128 + 1) % 128 ∧ r'.toNat / 128 = r.toNat / 128

/-- Every field of the ProcessorState is zero (R250). -/
def ProcessorZero (t : State) : Prop :=
  (∀ x, t.readReg8 x = 0x00#8) ∧ (∀ p, t.readPair p = 0x0000#16) ∧ (∀ x, t.flag x = false) ∧ t.sp = 0x0000#16 ∧ t.pc = 0x0000#16 ∧
  t.iff1 = false ∧ t.iff2 = false ∧ t.im = .im0 ∧ t.halted = false ∧ t.tStates = 0

/-- An instruction's meaning applied `n` times. -/
def execTimes : Nat → Instr → State → Host.Outcome State Fault Refusal
  | 0, _, s => .next s
  | n + 1, i, s =>
    match exec i s with
    | .next t => execTimes n i t
    | .fault f => .fault f
    | .refused r => .refused r

/-- The state in which `exec` runs an instruction fetched at PC (R110 lines (1) to (4), R113, R114): PC past its bytes, R advanced, the
fetches recorded. -/
def State.afterFetch (i : Instr) (s : State) : State :=
  { s with
    pc := s.pc + BitVec.ofNat 16 i.operation.length, r := refreshNext s.r,
    bus := s.bus ++ (.fetch s.pc i.operation.opcode :: operandEvents s.pc i) }

end Sys2Proof.Machine
end

