-- ==== Sys2Proof/Certificates/Slice0/Obligations.lean ====
section
/-! DEFINITION. The statements for the provers, made from the numbered rules of spec/. -/

open Sys2Proof Sys2Proof.Machine

/-! ### Reset and the host contract -/

/-- R250: `reset()`, in any state, zeroes every field of the ProcessorState; it writes no memory and no port and records no bus event. -/
def Obligations.ResetZeroesProcessorKeepsMemory : Prop :=
  ∀ s : State, ∃ t, hostCall .reset s = ⟨.ok, t⟩ ∧ ProcessorZero t ∧ SameMemory s t ∧ t.bus = s.bus ∧ t.ports = s.ports

/-- R21, R250: the state after construction is the all-zero ProcessorState. -/
def Obligations.ConstructedStateIsZero : Prop := ProcessorZero State.reset

/-- R252: a second `reset()` leaves the state of the first. -/
def Obligations.ResetIdempotent : Prop :=
  ∀ s : State, hostCall .reset (hostCall .reset s).state = hostCall .reset s

/-- R251: `resetTStates()` sets T to 0 and changes nothing else. -/
def Obligations.ResetTStatesOnly : Prop :=
  ∀ s : State, hostCall .resetTStates s = ⟨.ok, { s with tStates := 0 }⟩

/-- R22: what the host reads back from an 8-bit register is the written number modulo 2^8; from a pair, PC or SP modulo 2^16. -/
def Obligations.HostWritesTruncate : Prop :=
  ∀ (s : State) (v : Nat),
    (∀ x, hostQuery (.readReg8 x) (hostCall (.writeReg8 x v) s).state = v % 2 ^ 8) ∧
    (∀ p, hostQuery (.readPair p) (hostCall (.writePair p v) s).state = v % 2 ^ 16) ∧
    hostQuery .readPC (hostCall (.writePC v) s).state = v % 2 ^ 16 ∧
    hostQuery .readSP (hostCall (.writeSP v) s).state = v % 2 ^ 16

/-- R23: reading a pair gives `(high << 8) | low`; writing it sets high to bits 15:8 and low to bits 7:0; writing one half, or any other 8-bit
register, changes that register. Neither write changes another 8-bit register or a field that is none (SP, PC, memory and the rest). The table
says which registers each pair is made of; a host write is such a write of the truncated number (R22). -/
def Obligations.PairsComposeHighFirst : Prop :=
  [Pair.af, .bc, .de, .hl, .shadowAF, .shadowBC, .shadowDE, .shadowHL, .ix, .iy].map (fun q => (q.high, q.low)) =
    [(.a, .f), (.b, .c), (.d, .e), (.h, .l), (.shadowA, .shadowF), (.shadowB, .shadowC), (.shadowD, .shadowE), (.shadowH, .shadowL),
      (.ixh, .ixl), (.iyh, .iyl)] ∧
  (∀ (s : State) (p : Pair),
    (s.readPair p).toNat = (s.readReg8 p.high).toNat * 256 + (s.readReg8 p.low).toNat ∧
    (∀ v : Word,
      ((s.writePair p v).readReg8 p.high).toNat = v.toNat / 256 ∧ ((s.writePair p v).readReg8 p.low).toNat = v.toNat % 256 ∧
      (∀ x, x ≠ p.high → x ≠ p.low → (s.writePair p v).readReg8 x = s.readReg8 x) ∧ SameButReg8 s (s.writePair p v)) ∧
    ∀ w : Byte,
      (s.writeReg8 p.high w).readReg8 p.low = s.readReg8 p.low ∧ (s.writeReg8 p.low w).readReg8 p.high = s.readReg8 p.high ∧
      ((s.writeReg8 p.high w).readPair p).toNat = w.toNat * 256 + (s.readReg8 p.low).toNat ∧
      ((s.writeReg8 p.low w).readPair p).toNat = (s.readReg8 p.high).toNat * 256 + w.toNat) ∧
  (∀ (s : State) (x : Reg8) (w : Byte),
    (s.writeReg8 x w).readReg8 x = w ∧ (∀ y, y ≠ x → (s.writeReg8 x w).readReg8 y = s.readReg8 y) ∧ SameButReg8 s (s.writeReg8 x w)) ∧
  ∀ (s : State) (v : Nat),
    (∀ x, hostCall (.writeReg8 x v) s = ⟨.ok, s.writeReg8 x (BitVec.ofNat 8 v)⟩) ∧
    ∀ p, hostCall (.writePair p v) s = ⟨.ok, s.writePair p (BitVec.ofNat 16 v)⟩

/-- R30: the places and masks of the eight flags in F. -/
def Obligations.FlagPlaces : Prop :=
  [Flag.s, .z, .f5, .h, .f3, .pv, .n, .c].map Flag.mask = [0x80#8, 0x40#8, 0x20#8, 0x10#8, 0x08#8, 0x04#8, 0x02#8, 0x01#8] ∧
  ∀ s : State,
    s.flag .s = s.f.toNat.testBit 7 ∧ s.flag .z = s.f.toNat.testBit 6 ∧ s.flag .f5 = s.f.toNat.testBit 5 ∧ s.flag .h = s.f.toNat.testBit 4 ∧
    s.flag .f3 = s.f.toNat.testBit 3 ∧ s.flag .pv = s.f.toNat.testBit 2 ∧ s.flag .n = s.f.toNat.testBit 1 ∧ s.flag .c = s.f.toNat.testBit 0

/-- R31: writing the flags byte and reading it gives the number modulo 2^8; writing back what was read changes nothing; writing a named
flag with `b` makes it `b[0]`, leaves the other seven, and changes nothing but F. -/
def Obligations.FlagsByteAndNamedFlagsAgree : Prop :=
  ∀ (s : State) (v : Nat),
    hostQuery .getFlags (hostCall (.setFlags v) s).state = v % 2 ^ 8 ∧
    (hostCall (.setFlags (hostQuery .getFlags s)) s).state = s ∧
    ∀ x, ∃ t, hostCall (.writeFlag x v) s = ⟨.ok, t⟩ ∧ hostQuery (.readFlag x) t = v % 2 ∧ (∀ y, y ≠ x → t.flag y = s.flag y) ∧ t = { s with f := t.f }

/-- R131: a host write of 3 to IM is refused, the write does not happen and the refusal is recorded, at the end of the model's own list (log entry
5); 0, 1 and 2 are stored. No call but a write of IM, and executeInstruction, can be other than Ok. The one-bit fields store the number modulo 2,
which for IFF1 and IFF2 is the model's inference (log entry 11). For numbers above 3 see InterruptModeNumbersAboveThreeTruncate. -/
def Obligations.InterruptModeThreeRefusedAndRecorded : Prop :=
  ∀ s : State,
    hostCall (.writeIM 3) s = ⟨.refused .interruptModeThree, { s with refusals := s.refusals ++ [.interruptModeThree] }⟩ ∧
    (∀ v, v < 3 → ∃ t, hostCall (.writeIM v) s = ⟨.ok, t⟩ ∧ hostQuery .readIM t = v ∧ t = { s with im := t.im }) ∧
    (∀ call, call ≠ .executeInstruction → (∀ v, call ≠ .writeIM v) → (hostCall call s).outcome = .ok) ∧
    ∀ v, hostQuery .readIff1 (hostCall (.writeIff1 v) s).state = v % 2 ∧ hostQuery .readIff2 (hostCall (.writeIff2 v) s).state = v % 2 ∧
      ∀ x, hostQuery (.readFlag x) (hostCall (.writeFlag x v) s).state = v % 2

/-- A host write to IM of a number above 3 is the write of its low two bits: refused and recorded where they are 3, else stored with nothing else
changed. That is the model's choice (log entry 8): R131 refuses 3, says that all other values are truncated and stored, and gives 3 no meaning. -/
def Obligations.InterruptModeNumbersAboveThreeTruncate : Prop :=
  ∀ (s : State) (v : Nat), 3 < v →
    (v % 4 = 3 → hostCall (.writeIM v) s = ⟨.refused .interruptModeThree, { s with refusals := s.refusals ++ [.interruptModeThree] }⟩) ∧
    (v % 4 ≠ 3 → ∃ t, hostCall (.writeIM v) s = ⟨.ok, t⟩ ∧ hostQuery .readIM t = v % 4 ∧ t = { s with im := t.im })

/-! ### Memory -/

/-- R62: a write sets the byte at its address and changes no other location and nothing else of the state. -/
def Obligations.ReadAfterWrite : Prop :=
  ∀ (s : State) (a : Word) (v : Byte), s.Inv →
    (s.writeByte a v).readByte a = v ∧ (∀ b, b ≠ a → (s.writeByte a v).readByte b = s.readByte b) ∧
    s.writeByte a v = { s with mem := (s.writeByte a v).mem }

/-- R64: a word read has its low byte from `a` and its high byte from `a + 1` modulo 2^16; a word write stores them so, and nowhere else. -/
def Obligations.WordAccessLittleEndian : Prop :=
  ∀ (s : State) (a v : Word), s.Inv →
    (s.readWord a).toNat = (s.readByte (a + 1#16)).toNat * 256 + (s.readByte a).toNat ∧
    ((s.writeWord a v).readByte a).toNat = v.toNat % 256 ∧ ((s.writeWord a v).readByte (a + 1#16)).toNat = v.toNat / 256 ∧
    (s.writeWord a v).readWord a = v ∧ ∀ b, b ≠ a → b ≠ a + 1#16 → (s.writeWord a v).readByte b = s.readByte b

/-- Memories in canonical form that read alike at every address are the same data. -/
def Obligations.CanonicalMemoriesReadingAlikeAreEqual : Prop :=
  ∀ m m' : Memory, m.wf = true → m'.wf = true → (∀ a, a < 2 ^ 16 → m.read a = m'.read a) → m = m'

/-- Every step keeps the canonical form of memory. -/
def Obligations.StepKeepsMemoryCanonical : Prop :=
  ∀ s t : State, s.Inv → step s = .next t → t.Inv

/-- The two invariants of a step hold at reset: memory is in canonical form, and the empty history explains it. -/
def Obligations.ResetMeetsInvariants : Prop := State.reset.Inv ∧ replay State.reset.mem State.reset.bus = some State.reset.mem

/-- Every host call, whatever its outcome, keeps the canonical form of memory. -/
def Obligations.HostCallsKeepMemoryCanonical : Prop :=
  ∀ (s : State) (call : HostCall), s.Inv → (hostCall call s).state.Inv

/-! ### Fetching and decoding -/

/-- R114: Fetch16 is the little-endian word at PC; PC advances by 2 modulo 2^16, the two fetches are recorded, nothing else changes. -/
def Obligations.FetchWordReadsWordAtPC : Prop :=
  ∀ s : State,
    s.fetch16.1 = s.readWord s.pc ∧
    s.fetch16.2 = { s with pc := s.pc + 2#16, bus := s.bus ++ [.fetch s.pc (s.readByte s.pc), .fetch (s.pc + 1#16) (s.readByte (s.pc + 1#16))] }

/-- R90: the 17 entries with their operations, formats, lengths and costs, and no other entry; decoding rejects any other byte by name, whatever
follows it. -/
def Obligations.DispatchTableEntries : Prop :=
  [(0x00#8, Operation.nop, Format.op, 1, 4), (0x01#8, .ldBCnn, .opNN, 3, 10), (0x02#8, .ldIndBCA, .op, 1, 7), (0x03#8, .incBC, .op, 1, 6),
    (0x04#8, .incB, .op, 1, 4), (0x05#8, .decB, .op, 1, 4), (0x06#8, .ldBn, .opN, 2, 7), (0x07#8, .rlca, .op, 1, 4),
    (0x08#8, .exAFAF, .op, 1, 4), (0x09#8, .addHLBC, .op, 1, 11), (0x0A#8, .ldAIndBC, .op, 1, 7), (0x0B#8, .decBC, .op, 1, 6),
    (0x0C#8, .incC, .op, 1, 4), (0x0D#8, .decC, .op, 1, 4), (0x0E#8, .ldCn, .opN, 2, 7), (0x0F#8, .rrca, .op, 1, 4), (0x76#8, .halt, .op, 1, 4)].all
      (fun (op, o, fmt, len, cost) => dispatchTable op == .defined o cost && o.format == fmt && o.length == len && o.opcode == op) = true ∧
  (∀ op : Byte, dispatchTable op = .undefined ↔ UndefinedByte op) ∧
  ∀ (op : Byte) (rest : List Byte), UndefinedByte op → decode (op :: rest) = .error (.undefinedOpcode op)

/-- A few words written out from R86 and R90 decode to the instructions they stand for. -/
def Obligations.WrittenOutWordsDecode : Prop :=
  decode [0x01#8, 0x12#8, 0x34#8] = .ok (.ldBCnn 0x3412#16, []) ∧ decode [0x02#8] = .ok (.ldIndBCA, []) ∧ decode [0x06#8, 0x5A#8] = .ok (.ldBn 0x5A#8, []) ∧
  decode [0x09#8] = .ok (.addHLBC, []) ∧ decode [0x0D#8] = .ok (.decC, []) ∧ decode [0x0F#8] = .ok (.rrca, []) ∧
  decode [0x08#8] = .ok (.exAFAF, []) ∧ decode [0x76#8] = .ok (.halt, [])

/-- Decoding and encoding agree both ways: bytes decode to an instruction and a rest exactly when they are its encoding and that rest. -/
def Obligations.DecodesExactlyItsEncodings : Prop :=
  ∀ (bytes : List Byte) (i : Instr) (rest : List Byte), decode bytes = .ok (i, rest) ↔ bytes = encode i ++ rest

/-- R97: the assembler writes an instruction's encoding for the line that writes the instruction, and nothing for an ill-formed line. -/
def Obligations.AssemblerWritesEncoding : Prop :=
  (∀ i : Instr, i.wellFormed = true ∧ i.toLine.assemble = some (encode i)) ∧
  (∀ line : AsmLine, line.wellFormed = false → line.assemble = none) ∧
  AsmLine.assemble ⟨.ldBCnn, some 0x3412⟩ = some [0x01#8, 0x12#8, 0x34#8]

/-! ### The step -/

/-- R110: a running step whose bytes at PC decode to `i` is `exec i` on the state past those fetches, with the entry's cost added to T. -/
def Obligations.StepRunsDecodedInstruction : Prop :=
  ∀ (s : State) (i : Instr) (rest : List Byte), s.halted = false → decode (s.bytesFrom 3 s.pc) = .ok (i, rest) →
    ∃ cost, dispatchTable i.operation.opcode = .defined i.operation cost ∧
      step s = mapNext (State.addTStates cost) (exec i (s.afterFetch i))

/-- An instruction's encoding stored at PC, wherever PC is and wrapping at the top of memory, is the instruction the next step runs. -/
def Obligations.StoredEncodingRuns : Prop :=
  ∀ (s : State) (i : Instr), s.Inv → s.halted = false →
    ∃ cost, dispatchTable i.operation.opcode = .defined i.operation cost ∧
      step (s.storeBytes s.pc (encode i)) = mapNext (State.addTStates cost) (exec i ((s.storeBytes s.pc (encode i)).afterFetch i))

/-- R122: a halted step advances R.count, adds 4 to T and changes nothing else, bus history included. -/
def Obligations.HaltedStepOnlyRefreshesAndCounts : Prop :=
  ∀ s : State, s.halted = true → ∃ t, step s = .next t ∧ RefreshedOnce s.r t.r ∧ t = { s with r := t.r, tStates := s.tStates + 4 }

/-- R118: after an Ok step from a running state PC has moved by the length, T by the cost, R.count by one. -/
def Obligations.StepIsSequential : Prop :=
  ∀ s t : State, s.halted = false → step s = .next t →
    ∃ o cost, dispatchTable s.opcodeAtPC = .defined o cost ∧ t.pc.toNat = (s.pc.toNat + o.length) % 2 ^ 16 ∧ t.tStates = s.tStates + cost ∧
      RefreshedOnce s.r t.r

/-- R38: a step ends halted exactly when it began halted or fetched HALT; among all host calls only `reset()` takes halted from 1 to 0. -/
def Obligations.OnlyHaltSetsOnlyResetClearsHalted : Prop :=
  (∀ s t : State, step s = .next t → (t.halted = true ↔ s.halted = true ∨ s.opcodeAtPC = 0x76#8)) ∧
  (∀ (s : State) (call : HostCall), s.halted = true → (hostCall call s).state.halted = false → call = .reset) ∧
  ∀ (s : State) (call : HostCall), s.halted = false → (hostCall call s).state.halted = true → call = .executeInstruction

/-- R221, R222: a step faults exactly when it is not halted and the byte at PC is undefined, and the fault names PC and the byte. -/
def Obligations.FaultsExactlyOnUndefinedOpcode : Prop :=
  ∀ (s : State) (f : Fault), step s = .fault f ↔ s.halted = false ∧ UndefinedByte s.opcodeAtPC ∧ f = .decodeFault s.pc s.opcodeAtPC

/-- R221: the state after a DecodeFault is the state before it, the fetch recorded as a bus event. R225: the fault is recorded, at the end of the
model's own list (log entry 5), and with nothing changed the next call raises the same fault. R220, D23: its cause code is 1. -/
def Obligations.DecodeFaultLeavesStateAndRepeats : Prop :=
  (∀ s : State, s.halted = false → UndefinedByte s.opcodeAtPC →
    executeInstruction s =
      ⟨.fault (.decodeFault s.pc s.opcodeAtPC),
        { s with bus := s.bus ++ [.fetch s.pc s.opcodeAtPC], faults := s.faults ++ [.decodeFault s.pc s.opcodeAtPC] }⟩ ∧
    (Fault.decodeFault s.pc s.opcodeAtPC).causeCode = 1) ∧
  ∀ (s t : State) (f : Fault), executeInstruction s = ⟨.fault f, t⟩ → ∃ u, executeInstruction t = ⟨.fault f, u⟩

/-- R117, R222: a step answers a next state exactly when it is halted or its opcode is one of the 17; it never answers a refusal. -/
def Obligations.StepCompletesOnDefinedOpcodes : Prop :=
  ∀ s : State,
    ((∃ t, step s = .next t) ↔ s.halted = true ∨ s.opcodeAtPC.toNat ≤ 0x0F ∨ s.opcodeAtPC = 0x76#8) ∧ ∀ r, step s ≠ .refused r

/-- R67, R70: the events a step records, and their order. -/
def Obligations.StepRecordsAccessesInOrder : Prop :=
  ∀ s t : State, step s = .next t →
    (s.halted = true → t.bus = s.bus) ∧
    ∀ i rest, s.halted = false → decode (s.bytesFrom 3 s.pc) = .ok (i, rest) →
      t.bus = s.bus ++ (.fetch s.pc i.operation.opcode :: operandEvents s.pc i) ++ dataEvents s i

/-- R71: if the history so far, run over the launch memory, explains every byte fetched or read and ends in the present memory, so it does after
every step. -/
def Obligations.HistoryExplainsEveryRead : Prop :=
  ∀ (launch : Memory) (s t : State), replay launch s.bus = some s.mem → step s = .next t → replay launch t.bus = some t.mem

/-- R67: a step changes no byte of memory but the one at BC, and that only by LD (BC),A. -/
def Obligations.OnlyStoreChangesMemory : Prop :=
  ∀ s t : State, step s = .next t → ∀ a : Word, t.readByte a ≠ s.readByte a →
    s.halted = false ∧ s.opcodeAtPC = 0x02#8 ∧ a = s.indirectAddress .bc

/-- R74: a store is seen by the next fetch of its address, in the very next step when the address is the next instruction's. -/
def Obligations.StoreSeenByNextFetch : Prop :=
  ∀ s t : State, s.Inv → s.halted = false → s.opcodeAtPC = 0x02#8 → step s = .next t →
    t.readByte (s.indirectAddress .bc) = s.a ∧ (s.indirectAddress .bc = s.pc + 1#16 → t.opcodeAtPC = s.a)

/-- R25: the registers no in-scope instruction reaches keep their values across every step. R.hold, the port calls, the model's records and the policy
keep theirs too. -/
def Obligations.UnreachedStateKept : Prop :=
  ∀ s t : State, step s = .next t →
    t.d = s.d ∧ t.e = s.e ∧ t.shadowB = s.shadowB ∧ t.shadowC = s.shadowC ∧ t.shadowD = s.shadowD ∧ t.shadowE = s.shadowE ∧
    t.shadowH = s.shadowH ∧ t.shadowL = s.shadowL ∧ t.ixh = s.ixh ∧ t.ixl = s.ixl ∧ t.iyh = s.iyh ∧ t.iyl = s.iyl ∧ t.sp = s.sp ∧
    t.i = s.i ∧ t.iff1 = s.iff1 ∧ t.iff2 = s.iff2 ∧ t.im = s.im ∧ refreshHold t.r = refreshHold s.r ∧ t.ports = s.ports ∧
    t.faults = s.faults ∧ t.refusals = s.refusals ∧ t.f53 = s.f53

/-- R26: A' and F' change only by EX AF,AF'. -/
def Obligations.OnlyExchangeReachesShadow : Prop :=
  ∀ s t : State, step s = .next t → t.shadowA ≠ s.shadowA ∨ t.shadowF ≠ s.shadowF → s.halted = false ∧ s.opcodeAtPC = 0x08#8

/-- R34, R36, R226: the interrupt state has no effect: a step from a state with another I, IFF1, IFF2 and IM gives the same outcome, that state
carried along. -/
def Obligations.InterruptStateHasNoEffect : Prop :=
  ∀ (s : State) (i : Byte) (iff1 iff2 : Bool) (im : InterruptMode),
    step (s.withInterruptState i iff1 iff2 im) = mapNext (State.withInterruptState i iff1 iff2 im) (step s)

/-- R261: nothing reads T: a step from a state with a larger T gives the same outcome, the difference carried along. -/
def Obligations.TStatesHaveNoEffect : Prop :=
  ∀ (s : State) (k : Nat), step (s.addTStates k) = mapNext (State.addTStates k) (step s)

/-- R122, R119: `n` steps from a halted state are `n` halted steps. -/
def Obligations.HaltedForever : Prop :=
  ∀ (n : Nat) (s : State), s.halted = true →
    ∃ t, core.run n s = .next t ∧ t.r.toNat % 128 = (s.r.toNat % 128 + n) % 128 ∧ t.r.toNat / 128 = s.r.toNat / 128 ∧
      t = { s with r := t.r, tStates := s.tStates + 4 * n }

/-- R119(a): a run ends cleanly in `t` exactly when `t` is the state after the first Ok step after which halted = 1. -/
def Obligations.RunEndsCleanlyAtFirstHalt : Prop :=
  ∀ (n : Nat) (s t : State), run n s = .clean t ↔
    ∃ k, k < n ∧ core.run (k + 1) s = .next t ∧ t.halted = true ∧ ∀ j u, 0 < j → j ≤ k → core.run j s = .next u → u.halted = false

/-- R119(b): a run ends faulted exactly when its first fault comes before its first halt; the end state is what the faulting step left. -/
def Obligations.RunEndsFaultedAtFirstFault : Prop :=
  ∀ (n : Nat) (s t : State) (f : Fault), run n s = .faulted t f ↔
    ∃ k u, k < n ∧ core.run k s = .next u ∧ executeInstruction u = ⟨.fault f, t⟩ ∧ ∀ j v, 0 < j → j ≤ k → core.run j s = .next v → v.halted = false

/-! ### The instructions

The state `s` is the one after the instruction's bytes are fetched, PC past them; the step's own changes are in StepRunsDecodedInstruction. -/

/-- R120: NOP changes nothing. -/
def Obligations.NopCompletes : Prop := EncodedAs .nop [0x00#8] 4 ∧ ∀ s : State, exec .nop s = .next s

/-- R121: HALT sets halted and changes nothing else; a step at it leaves PC after the HALT. -/
def Obligations.HaltCompletes : Prop :=
  EncodedAs .halt [0x76#8] 4 ∧ (∀ s : State, exec .halt s = .next { s with halted := true }) ∧
  ∀ s : State, s.halted = false → s.opcodeAtPC = 0x76#8 →
    ∃ t, step s = .next t ∧ t.halted = true ∧ t.pc = s.pc + 1#16 ∧ t.tStates = s.tStates + 4 ∧ t.f = s.f

/-- R144, R140: INC B. F5 and F3 are R7's; how the free draws of ANY are numbered is the model's choice (log entry 2). -/
def Obligations.IncBCompletes : Prop :=
  EncodedAs .incB [0x04#8] 4 ∧ ∀ s : State, ∃ t, exec .incB s = .next t ∧ Inc8Result s.b t.b s t ∧ t = { s with b := t.b, f := t.f, draws := t.draws } ∧ SameMemory s t

/-- R145, R141: DEC B. F5 and F3 are R7's; how the free draws of ANY are numbered is the model's choice (log entry 2). -/
def Obligations.DecBCompletes : Prop :=
  EncodedAs .decB [0x05#8] 4 ∧ ∀ s : State, ∃ t, exec .decB s = .next t ∧ Dec8Result s.b t.b s t ∧ t = { s with b := t.b, f := t.f, draws := t.draws } ∧ SameMemory s t

/-- R146, R140: INC C writes the register C and never B or the carry flag. F5 and F3 are R7's; how the free draws of
ANY are numbered is the model's choice (log entry 2). -/
def Obligations.IncCCompletes : Prop :=
  EncodedAs .incC [0x0C#8] 4 ∧ ∀ s : State, ∃ t, exec .incC s = .next t ∧ Inc8Result s.c t.c s t ∧ t = { s with c := t.c, f := t.f, draws := t.draws } ∧ SameMemory s t

/-- R147, R141: DEC C writes the register C and never B or the carry flag. F5 and F3 are R7's; how the free draws of
ANY are numbered is the model's choice (log entry 2). -/
def Obligations.DecCCompletes : Prop :=
  EncodedAs .decC [0x0D#8] 4 ∧ ∀ s : State, ∃ t, exec .decC s = .next t ∧ Dec8Result s.c t.c s t ∧ t = { s with c := t.c, f := t.f, draws := t.draws } ∧ SameMemory s t

/-- R142 for INC8, of the operand `v` and result `r` of an instruction run from `s` to `t`: the result wraps modulo 2^8, C is kept, Z alone tells the
wrap, PV is signed overflow, S is the sign, and PV and Z are never set together. -/
def Inc8Laws (v r : Byte) (s t : State) : Prop :=
  r.toNat = (v.toNat + 1) % 256 ∧ t.flag .c = s.flag .c ∧ (t.flag .z = true ↔ r.toNat ≠ v.toNat + 1) ∧
  (t.flag .pv = true ↔ r.toInt ≠ v.toInt + 1) ∧ (t.flag .s = true ↔ r.toInt < 0) ∧ ¬(t.flag .pv = true ∧ t.flag .z = true)

/-- R142 for DEC8. -/
def Dec8Laws (v r : Byte) (s t : State) : Prop :=
  r.toNat = (v.toNat + 255) % 256 ∧ t.flag .c = s.flag .c ∧ (t.flag .pv = true ↔ r.toInt ≠ v.toInt - 1) ∧ (t.flag .s = true ↔ r.toInt < 0) ∧
  ¬(t.flag .pv = true ∧ t.flag .z = true)

/-- R142: the arithmetic laws of INC8 and DEC8, for the four instructions over them. -/
def Obligations.IncDecArithmeticLaws : Prop :=
  ∀ s t : State,
    (exec .incB s = .next t → Inc8Laws s.b t.b s t) ∧ (exec .incC s = .next t → Inc8Laws s.c t.c s t) ∧
    (exec .decB s = .next t → Dec8Laws s.b t.b s t) ∧ (exec .decC s = .next t → Dec8Laws s.c t.c s t)

/-- R160: INC BC wraps modulo 2^16 and writes no flag. -/
def Obligations.IncBCCompletes : Prop :=
  EncodedAs .incBC [0x03#8] 6 ∧ ∀ s : State, ∃ t, exec .incBC s = .next t ∧ (t.readPair .bc).toNat = ((s.readPair .bc).toNat + 1) % 2 ^ 16 ∧
    t = { s with b := t.b, c := t.c } ∧ SameMemory s t

/-- R161: DEC BC wraps modulo 2^16 and writes no flag. -/
def Obligations.DecBCCompletes : Prop :=
  EncodedAs .decBC [0x0B#8] 6 ∧ ∀ s : State, ∃ t, exec .decBC s = .next t ∧ (t.readPair .bc).toNat = ((s.readPair .bc).toNat + 0xFFFF) % 2 ^ 16 ∧
    t = { s with b := t.b, c := t.c } ∧ SameMemory s t

/-- R162: ADD HL,BC: the sum modulo 2^16, C the carry out of bit 15, H the carry out of bit 11, N cleared, S, Z and PV kept.
F5 and F3 are R7's; how the free draws of ANY are numbered is the model's choice (log entry 2). -/
def Obligations.AddHLBCCompletes : Prop :=
  EncodedAs .addHLBC [0x09#8] 11 ∧ ∀ s : State, ∃ t, exec .addHLBC s = .next t ∧
    (t.readPair .hl).toNat = ((s.readPair .hl).toNat + (s.readPair .bc).toNat) % 2 ^ 16 ∧
    t.flag .c = decide (0xFFFF < (s.readPair .hl).toNat + (s.readPair .bc).toNat) ∧
    t.flag .h = decide (0xFFF < (s.readPair .hl).toNat % 0x1000 + (s.readPair .bc).toNat % 0x1000) ∧
    t.flag .n = false ∧ t.flag .s = s.flag .s ∧ t.flag .z = s.flag .z ∧ t.flag .pv = s.flag .pv ∧
    F53Written s t ((t.readPair .hl).toNat.testBit 13) ((t.readPair .hl).toNat.testBit 11) ∧
    t = { s with h := t.h, l := t.l, f := t.f, draws := t.draws } ∧ SameMemory s t

/-- R180: EX AF,AF' swaps A with A' and F with F', nothing else; a second one restores the state. -/
def Obligations.ExchangeCompletes : Prop :=
  EncodedAs .exAFAF [0x08#8] 4 ∧ ∀ s : State, ∃ t, exec .exAFAF s = .next t ∧ t.a = s.shadowA ∧ t.f = s.shadowF ∧ t.shadowA = s.a ∧ t.shadowF = s.f ∧
    t = { s with a := t.a, f := t.f, shadowA := t.shadowA, shadowF := t.shadowF } ∧ SameMemory s t ∧ exec .exAFAF t = .next s

/-- R190: RLCA: A[6:0] : A[7], C the old A[7]. F5 and F3 are R7's; how the free draws of ANY are numbered is
the model's choice (log entry 2). -/
def Obligations.RlcaCompletes : Prop :=
  EncodedAs .rlca [0x07#8] 4 ∧ ∀ s : State, ∃ t, exec .rlca s = .next t ∧ t.a.toNat = s.a.toNat % 128 * 2 + s.a.toNat / 128 ∧ t.flag .c = decide (128 ≤ s.a.toNat) ∧
    RotateFlagsResult s t ∧ t = { s with a := t.a, f := t.f, draws := t.draws } ∧ SameMemory s t

/-- R191: RRCA: A[0] : A[7:1], C the old A[0]. F5 and F3 are R7's; how the free draws of ANY are numbered is
the model's choice (log entry 2). -/
def Obligations.RrcaCompletes : Prop :=
  EncodedAs .rrca [0x0F#8] 4 ∧ ∀ s : State, ∃ t, exec .rrca s = .next t ∧ t.a.toNat = s.a.toNat % 2 * 128 + s.a.toNat / 2 ∧ t.flag .c = decide (s.a.toNat % 2 = 1) ∧
    RotateFlagsResult s t ∧ t = { s with a := t.a, f := t.f, draws := t.draws } ∧ SameMemory s t

/-- R192: the rotates are inverse on A, eight of either restore A, and C is the bit that moved round. -/
def Obligations.RotateLaws : Prop :=
  ∀ s t u : State,
    (exec .rlca s = .next t → exec .rrca t = .next u → u.a = s.a) ∧ (exec .rrca s = .next t → exec .rlca t = .next u → u.a = s.a) ∧
    (execTimes 8 .rlca s = .next t → t.a = s.a) ∧ (execTimes 8 .rrca s = .next t → t.a = s.a) ∧
    (exec .rlca s = .next t → t.flag .c = t.a.toNat.testBit 0) ∧ (exec .rrca s = .next t → t.flag .c = t.a.toNat.testBit 7)

/-- R200: LD BC,nn: C gets the low byte of nn, B the high byte; a step at it takes C from PC + 1 and B from PC + 2. -/
def Obligations.LdBCnnCompletes : Prop :=
  (∀ (s : State) (nn : Word), EncodedAs (.ldBCnn nn) [0x01#8, loByte nn, hiByte nn] 10 ∧
    ∃ t, exec (.ldBCnn nn) s = .next t ∧ t.readPair .bc = nn ∧ t.c.toNat = nn.toNat % 256 ∧ t.b.toNat = nn.toNat / 256 ∧
      t = { s with b := t.b, c := t.c } ∧ SameMemory s t) ∧
  ∀ s : State, s.halted = false → s.opcodeAtPC = 0x01#8 →
    ∃ t, step s = .next t ∧ t.c = s.readByte (s.pc + 1#16) ∧ t.b = s.readByte (s.pc + 2#16) ∧ t.pc = s.pc + 3#16 ∧
      t.tStates = s.tStates + 10 ∧ t.f = s.f

/-- R201: LD (BC),A stores A at BC, records the write, and changes no other byte and no register; the store is what the next fetch reads. -/
def Obligations.LdIndBCACompletes : Prop :=
  EncodedAs .ldIndBCA [0x02#8] 7 ∧ ∀ s : State, ∃ t, exec .ldIndBCA s = .next t ∧ (s.Inv → t.readByte (s.indirectAddress .bc) = s.a) ∧
    (∀ a, a ≠ s.indirectAddress .bc → t.readByte a = s.readByte a) ∧
    (s.Inv → s.indirectAddress .bc = s.pc → t.opcodeAtPC = s.a) ∧ s.indirectAddress .bc = s.readPair .bc ∧
    t = { s with mem := t.mem, bus := s.bus ++ [.write (s.readPair .bc) s.a] }

/-- R202: LD B,n; a step at it takes n from PC + 1. -/
def Obligations.LdBnCompletes : Prop :=
  (∀ (s : State) (n : Byte), EncodedAs (.ldBn n) [0x06#8, n] 7 ∧
    ∃ t, exec (.ldBn n) s = .next t ∧ t = { s with b := n } ∧ SameMemory s t) ∧
  ∀ s : State, s.halted = false → s.opcodeAtPC = 0x06#8 →
    ∃ t, step s = .next t ∧ t.b = s.readByte (s.pc + 1#16) ∧ t.c = s.c ∧ t.pc = s.pc + 2#16 ∧ t.tStates = s.tStates + 7 ∧ t.f = s.f

/-- R203: LD A,(BC) loads A with the byte at BC, records the read, and writes no flag. -/
def Obligations.LdAIndBCCompletes : Prop :=
  EncodedAs .ldAIndBC [0x0A#8] 7 ∧ ∀ s : State, ∃ t, exec .ldAIndBC s = .next t ∧ t.a = s.readByte (s.readPair .bc) ∧
    t = { s with a := t.a, bus := s.bus ++ [.read (s.readPair .bc) t.a] } ∧ SameMemory s t

/-- R204: LD C,n; a step at it takes n from PC + 1. -/
def Obligations.LdCnCompletes : Prop :=
  (∀ (s : State) (n : Byte), EncodedAs (.ldCn n) [0x0E#8, n] 7 ∧
    ∃ t, exec (.ldCn n) s = .next t ∧ t = { s with c := n } ∧ SameMemory s t) ∧
  ∀ s : State, s.halted = false → s.opcodeAtPC = 0x0E#8 →
    ∃ t, step s = .next t ∧ t.c = s.readByte (s.pc + 1#16) ∧ t.b = s.b ∧ t.pc = s.pc + 2#16 ∧ t.tStates = s.tStates + 7 ∧ t.f = s.f

/-- R33: the flags each instruction leaves unchanged, clears, sets or exchanges, as the summary table has them (the computed ones are in each
instruction's own statement). -/
def Obligations.FlagTable : Prop :=
  ∀ (i : Instr) (s : State), ∃ t, exec i s = .next t ∧
    match i with
    | .nop | .halt | .ldBCnn _ | .ldIndBCA | .ldBn _ | .ldAIndBC | .ldCn _ | .incBC | .decBC => ∀ x, t.flag x = s.flag x
    | .incB | .incC => t.flag .n = false ∧ t.flag .c = s.flag .c
    | .decB | .decC => t.flag .n = true ∧ t.flag .c = s.flag .c
    | .addHLBC => t.flag .n = false ∧ ∀ x ∈ [Flag.s, .z, .pv], t.flag x = s.flag x
    | .rlca | .rrca => t.flag .n = false ∧ t.flag .h = false ∧ ∀ x ∈ [Flag.s, .z, .pv], t.flag x = s.flag x
    | .exAFAF => ∀ x, t.flag x = getFlag s.shadowF x ∧ getFlag t.shadowF x = s.flag x
end

