-- ==== Sys2Proof/Laws/Decode.lean ====
section
/-! SUPPORT. Laws of the dispatch table and the encoder. -/

namespace Sys2Proof

/-- Each operation's opcode has that operation's entry (R90). -/
theorem dispatchTable_opcode (o : Operation) : ∃ cost, dispatchTable o.opcode = .defined o cost := by
  cases o <;> exact ⟨_, rfl⟩

/-- A defined entry names the operation whose opcode it stands at: no two operations share a byte (R90). -/
theorem opcode_of_dispatchTable : ∀ (op : Byte) (o : Operation) (cost : Nat), dispatchTable op = .defined o cost → o.opcode = op := by
  intro op o cost h
  unfold dispatchTable at h
  split at h <;> first | (injection h with h1 _; rw [← h1]; rfl) | injection h

theorem encode_length (i : Instr) : (encode i).length = i.operation.length := by cases i <;> rfl

end Sys2Proof
end

