-- ==== Sys2Proof/Laws/State.lean ====
section
/-! SUPPORT. What each primitive update of the state does to each field: one lemma per field per update. -/

namespace Sys2Proof.Machine

/-! ### Fields after recording a bus event (R70) -/

@[simp] theorem State.record_a (ev : BusEvent) (s : State) : (s.record ev).a = s.a := rfl
@[simp] theorem State.record_f (ev : BusEvent) (s : State) : (s.record ev).f = s.f := rfl
@[simp] theorem State.record_b (ev : BusEvent) (s : State) : (s.record ev).b = s.b := rfl
@[simp] theorem State.record_c (ev : BusEvent) (s : State) : (s.record ev).c = s.c := rfl
@[simp] theorem State.record_d (ev : BusEvent) (s : State) : (s.record ev).d = s.d := rfl
@[simp] theorem State.record_e (ev : BusEvent) (s : State) : (s.record ev).e = s.e := rfl
@[simp] theorem State.record_h (ev : BusEvent) (s : State) : (s.record ev).h = s.h := rfl
@[simp] theorem State.record_l (ev : BusEvent) (s : State) : (s.record ev).l = s.l := rfl
@[simp] theorem State.record_shadowA (ev : BusEvent) (s : State) : (s.record ev).shadowA = s.shadowA := rfl
@[simp] theorem State.record_shadowF (ev : BusEvent) (s : State) : (s.record ev).shadowF = s.shadowF := rfl
@[simp] theorem State.record_shadowB (ev : BusEvent) (s : State) : (s.record ev).shadowB = s.shadowB := rfl
@[simp] theorem State.record_shadowC (ev : BusEvent) (s : State) : (s.record ev).shadowC = s.shadowC := rfl
@[simp] theorem State.record_shadowD (ev : BusEvent) (s : State) : (s.record ev).shadowD = s.shadowD := rfl
@[simp] theorem State.record_shadowE (ev : BusEvent) (s : State) : (s.record ev).shadowE = s.shadowE := rfl
@[simp] theorem State.record_shadowH (ev : BusEvent) (s : State) : (s.record ev).shadowH = s.shadowH := rfl
@[simp] theorem State.record_shadowL (ev : BusEvent) (s : State) : (s.record ev).shadowL = s.shadowL := rfl
@[simp] theorem State.record_ixh (ev : BusEvent) (s : State) : (s.record ev).ixh = s.ixh := rfl
@[simp] theorem State.record_ixl (ev : BusEvent) (s : State) : (s.record ev).ixl = s.ixl := rfl
@[simp] theorem State.record_iyh (ev : BusEvent) (s : State) : (s.record ev).iyh = s.iyh := rfl
@[simp] theorem State.record_iyl (ev : BusEvent) (s : State) : (s.record ev).iyl = s.iyl := rfl
@[simp] theorem State.record_sp (ev : BusEvent) (s : State) : (s.record ev).sp = s.sp := rfl
@[simp] theorem State.record_pc (ev : BusEvent) (s : State) : (s.record ev).pc = s.pc := rfl
@[simp] theorem State.record_i (ev : BusEvent) (s : State) : (s.record ev).i = s.i := rfl
@[simp] theorem State.record_r (ev : BusEvent) (s : State) : (s.record ev).r = s.r := rfl
@[simp] theorem State.record_iff1 (ev : BusEvent) (s : State) : (s.record ev).iff1 = s.iff1 := rfl
@[simp] theorem State.record_iff2 (ev : BusEvent) (s : State) : (s.record ev).iff2 = s.iff2 := rfl
@[simp] theorem State.record_im (ev : BusEvent) (s : State) : (s.record ev).im = s.im := rfl
@[simp] theorem State.record_halted (ev : BusEvent) (s : State) : (s.record ev).halted = s.halted := rfl
@[simp] theorem State.record_tStates (ev : BusEvent) (s : State) : (s.record ev).tStates = s.tStates := rfl
@[simp] theorem State.record_mem (ev : BusEvent) (s : State) : (s.record ev).mem = s.mem := rfl
@[simp] theorem State.record_bus (ev : BusEvent) (s : State) : (s.record ev).bus = s.bus ++ [ev] := rfl
@[simp] theorem State.record_faults (ev : BusEvent) (s : State) : (s.record ev).faults = s.faults := rfl
@[simp] theorem State.record_refusals (ev : BusEvent) (s : State) : (s.record ev).refusals = s.refusals := rfl
@[simp] theorem State.record_ports (ev : BusEvent) (s : State) : (s.record ev).ports = s.ports := rfl
@[simp] theorem State.record_f53 (ev : BusEvent) (s : State) : (s.record ev).f53 = s.f53 := rfl
@[simp] theorem State.record_draws (ev : BusEvent) (s : State) : (s.record ev).draws = s.draws := rfl

/-! ### Fields after adding T-states (R115) -/

@[simp] theorem State.addTStates_a (n : Nat) (s : State) : (s.addTStates n).a = s.a := rfl
@[simp] theorem State.addTStates_f (n : Nat) (s : State) : (s.addTStates n).f = s.f := rfl
@[simp] theorem State.addTStates_b (n : Nat) (s : State) : (s.addTStates n).b = s.b := rfl
@[simp] theorem State.addTStates_c (n : Nat) (s : State) : (s.addTStates n).c = s.c := rfl
@[simp] theorem State.addTStates_d (n : Nat) (s : State) : (s.addTStates n).d = s.d := rfl
@[simp] theorem State.addTStates_e (n : Nat) (s : State) : (s.addTStates n).e = s.e := rfl
@[simp] theorem State.addTStates_h (n : Nat) (s : State) : (s.addTStates n).h = s.h := rfl
@[simp] theorem State.addTStates_l (n : Nat) (s : State) : (s.addTStates n).l = s.l := rfl
@[simp] theorem State.addTStates_shadowA (n : Nat) (s : State) : (s.addTStates n).shadowA = s.shadowA := rfl
@[simp] theorem State.addTStates_shadowF (n : Nat) (s : State) : (s.addTStates n).shadowF = s.shadowF := rfl
@[simp] theorem State.addTStates_shadowB (n : Nat) (s : State) : (s.addTStates n).shadowB = s.shadowB := rfl
@[simp] theorem State.addTStates_shadowC (n : Nat) (s : State) : (s.addTStates n).shadowC = s.shadowC := rfl
@[simp] theorem State.addTStates_shadowD (n : Nat) (s : State) : (s.addTStates n).shadowD = s.shadowD := rfl
@[simp] theorem State.addTStates_shadowE (n : Nat) (s : State) : (s.addTStates n).shadowE = s.shadowE := rfl
@[simp] theorem State.addTStates_shadowH (n : Nat) (s : State) : (s.addTStates n).shadowH = s.shadowH := rfl
@[simp] theorem State.addTStates_shadowL (n : Nat) (s : State) : (s.addTStates n).shadowL = s.shadowL := rfl
@[simp] theorem State.addTStates_ixh (n : Nat) (s : State) : (s.addTStates n).ixh = s.ixh := rfl
@[simp] theorem State.addTStates_ixl (n : Nat) (s : State) : (s.addTStates n).ixl = s.ixl := rfl
@[simp] theorem State.addTStates_iyh (n : Nat) (s : State) : (s.addTStates n).iyh = s.iyh := rfl
@[simp] theorem State.addTStates_iyl (n : Nat) (s : State) : (s.addTStates n).iyl = s.iyl := rfl
@[simp] theorem State.addTStates_sp (n : Nat) (s : State) : (s.addTStates n).sp = s.sp := rfl
@[simp] theorem State.addTStates_pc (n : Nat) (s : State) : (s.addTStates n).pc = s.pc := rfl
@[simp] theorem State.addTStates_i (n : Nat) (s : State) : (s.addTStates n).i = s.i := rfl
@[simp] theorem State.addTStates_r (n : Nat) (s : State) : (s.addTStates n).r = s.r := rfl
@[simp] theorem State.addTStates_iff1 (n : Nat) (s : State) : (s.addTStates n).iff1 = s.iff1 := rfl
@[simp] theorem State.addTStates_iff2 (n : Nat) (s : State) : (s.addTStates n).iff2 = s.iff2 := rfl
@[simp] theorem State.addTStates_im (n : Nat) (s : State) : (s.addTStates n).im = s.im := rfl
@[simp] theorem State.addTStates_halted (n : Nat) (s : State) : (s.addTStates n).halted = s.halted := rfl
@[simp] theorem State.addTStates_tStates (n : Nat) (s : State) : (s.addTStates n).tStates = s.tStates + n := rfl
@[simp] theorem State.addTStates_mem (n : Nat) (s : State) : (s.addTStates n).mem = s.mem := rfl
@[simp] theorem State.addTStates_bus (n : Nat) (s : State) : (s.addTStates n).bus = s.bus := rfl
@[simp] theorem State.addTStates_faults (n : Nat) (s : State) : (s.addTStates n).faults = s.faults := rfl
@[simp] theorem State.addTStates_refusals (n : Nat) (s : State) : (s.addTStates n).refusals = s.refusals := rfl
@[simp] theorem State.addTStates_ports (n : Nat) (s : State) : (s.addTStates n).ports = s.ports := rfl
@[simp] theorem State.addTStates_f53 (n : Nat) (s : State) : (s.addTStates n).f53 = s.f53 := rfl
@[simp] theorem State.addTStates_draws (n : Nat) (s : State) : (s.addTStates n).draws = s.draws := rfl

/-! ### Fields after the refresh increment (R112) -/

@[simp] theorem State.refresh_a (s : State) : (s.refresh).a = s.a := rfl
@[simp] theorem State.refresh_f (s : State) : (s.refresh).f = s.f := rfl
@[simp] theorem State.refresh_b (s : State) : (s.refresh).b = s.b := rfl
@[simp] theorem State.refresh_c (s : State) : (s.refresh).c = s.c := rfl
@[simp] theorem State.refresh_d (s : State) : (s.refresh).d = s.d := rfl
@[simp] theorem State.refresh_e (s : State) : (s.refresh).e = s.e := rfl
@[simp] theorem State.refresh_h (s : State) : (s.refresh).h = s.h := rfl
@[simp] theorem State.refresh_l (s : State) : (s.refresh).l = s.l := rfl
@[simp] theorem State.refresh_shadowA (s : State) : (s.refresh).shadowA = s.shadowA := rfl
@[simp] theorem State.refresh_shadowF (s : State) : (s.refresh).shadowF = s.shadowF := rfl
@[simp] theorem State.refresh_shadowB (s : State) : (s.refresh).shadowB = s.shadowB := rfl
@[simp] theorem State.refresh_shadowC (s : State) : (s.refresh).shadowC = s.shadowC := rfl
@[simp] theorem State.refresh_shadowD (s : State) : (s.refresh).shadowD = s.shadowD := rfl
@[simp] theorem State.refresh_shadowE (s : State) : (s.refresh).shadowE = s.shadowE := rfl
@[simp] theorem State.refresh_shadowH (s : State) : (s.refresh).shadowH = s.shadowH := rfl
@[simp] theorem State.refresh_shadowL (s : State) : (s.refresh).shadowL = s.shadowL := rfl
@[simp] theorem State.refresh_ixh (s : State) : (s.refresh).ixh = s.ixh := rfl
@[simp] theorem State.refresh_ixl (s : State) : (s.refresh).ixl = s.ixl := rfl
@[simp] theorem State.refresh_iyh (s : State) : (s.refresh).iyh = s.iyh := rfl
@[simp] theorem State.refresh_iyl (s : State) : (s.refresh).iyl = s.iyl := rfl
@[simp] theorem State.refresh_sp (s : State) : (s.refresh).sp = s.sp := rfl
@[simp] theorem State.refresh_pc (s : State) : (s.refresh).pc = s.pc := rfl
@[simp] theorem State.refresh_i (s : State) : (s.refresh).i = s.i := rfl
@[simp] theorem State.refresh_r (s : State) : (s.refresh).r = refreshNext s.r := rfl
@[simp] theorem State.refresh_iff1 (s : State) : (s.refresh).iff1 = s.iff1 := rfl
@[simp] theorem State.refresh_iff2 (s : State) : (s.refresh).iff2 = s.iff2 := rfl
@[simp] theorem State.refresh_im (s : State) : (s.refresh).im = s.im := rfl
@[simp] theorem State.refresh_halted (s : State) : (s.refresh).halted = s.halted := rfl
@[simp] theorem State.refresh_tStates (s : State) : (s.refresh).tStates = s.tStates := rfl
@[simp] theorem State.refresh_mem (s : State) : (s.refresh).mem = s.mem := rfl
@[simp] theorem State.refresh_bus (s : State) : (s.refresh).bus = s.bus := rfl
@[simp] theorem State.refresh_faults (s : State) : (s.refresh).faults = s.faults := rfl
@[simp] theorem State.refresh_refusals (s : State) : (s.refresh).refusals = s.refusals := rfl
@[simp] theorem State.refresh_ports (s : State) : (s.refresh).ports = s.ports := rfl
@[simp] theorem State.refresh_f53 (s : State) : (s.refresh).f53 = s.f53 := rfl
@[simp] theorem State.refresh_draws (s : State) : (s.refresh).draws = s.draws := rfl

/-! ### Fields after writing a named flag (R31) -/

@[simp] theorem State.setFlagBit_a (x : Flag) (v : Bool) (s : State) : (s.setFlagBit x v).a = s.a := rfl
@[simp] theorem State.setFlagBit_f (x : Flag) (v : Bool) (s : State) : (s.setFlagBit x v).f = setFlag s.f x v := rfl
@[simp] theorem State.setFlagBit_b (x : Flag) (v : Bool) (s : State) : (s.setFlagBit x v).b = s.b := rfl
@[simp] theorem State.setFlagBit_c (x : Flag) (v : Bool) (s : State) : (s.setFlagBit x v).c = s.c := rfl
@[simp] theorem State.setFlagBit_d (x : Flag) (v : Bool) (s : State) : (s.setFlagBit x v).d = s.d := rfl
@[simp] theorem State.setFlagBit_e (x : Flag) (v : Bool) (s : State) : (s.setFlagBit x v).e = s.e := rfl
@[simp] theorem State.setFlagBit_h (x : Flag) (v : Bool) (s : State) : (s.setFlagBit x v).h = s.h := rfl
@[simp] theorem State.setFlagBit_l (x : Flag) (v : Bool) (s : State) : (s.setFlagBit x v).l = s.l := rfl
@[simp] theorem State.setFlagBit_shadowA (x : Flag) (v : Bool) (s : State) : (s.setFlagBit x v).shadowA = s.shadowA := rfl
@[simp] theorem State.setFlagBit_shadowF (x : Flag) (v : Bool) (s : State) : (s.setFlagBit x v).shadowF = s.shadowF := rfl
@[simp] theorem State.setFlagBit_shadowB (x : Flag) (v : Bool) (s : State) : (s.setFlagBit x v).shadowB = s.shadowB := rfl
@[simp] theorem State.setFlagBit_shadowC (x : Flag) (v : Bool) (s : State) : (s.setFlagBit x v).shadowC = s.shadowC := rfl
@[simp] theorem State.setFlagBit_shadowD (x : Flag) (v : Bool) (s : State) : (s.setFlagBit x v).shadowD = s.shadowD := rfl
@[simp] theorem State.setFlagBit_shadowE (x : Flag) (v : Bool) (s : State) : (s.setFlagBit x v).shadowE = s.shadowE := rfl
@[simp] theorem State.setFlagBit_shadowH (x : Flag) (v : Bool) (s : State) : (s.setFlagBit x v).shadowH = s.shadowH := rfl
@[simp] theorem State.setFlagBit_shadowL (x : Flag) (v : Bool) (s : State) : (s.setFlagBit x v).shadowL = s.shadowL := rfl
@[simp] theorem State.setFlagBit_ixh (x : Flag) (v : Bool) (s : State) : (s.setFlagBit x v).ixh = s.ixh := rfl
@[simp] theorem State.setFlagBit_ixl (x : Flag) (v : Bool) (s : State) : (s.setFlagBit x v).ixl = s.ixl := rfl
@[simp] theorem State.setFlagBit_iyh (x : Flag) (v : Bool) (s : State) : (s.setFlagBit x v).iyh = s.iyh := rfl
@[simp] theorem State.setFlagBit_iyl (x : Flag) (v : Bool) (s : State) : (s.setFlagBit x v).iyl = s.iyl := rfl
@[simp] theorem State.setFlagBit_sp (x : Flag) (v : Bool) (s : State) : (s.setFlagBit x v).sp = s.sp := rfl
@[simp] theorem State.setFlagBit_pc (x : Flag) (v : Bool) (s : State) : (s.setFlagBit x v).pc = s.pc := rfl
@[simp] theorem State.setFlagBit_i (x : Flag) (v : Bool) (s : State) : (s.setFlagBit x v).i = s.i := rfl
@[simp] theorem State.setFlagBit_r (x : Flag) (v : Bool) (s : State) : (s.setFlagBit x v).r = s.r := rfl
@[simp] theorem State.setFlagBit_iff1 (x : Flag) (v : Bool) (s : State) : (s.setFlagBit x v).iff1 = s.iff1 := rfl
@[simp] theorem State.setFlagBit_iff2 (x : Flag) (v : Bool) (s : State) : (s.setFlagBit x v).iff2 = s.iff2 := rfl
@[simp] theorem State.setFlagBit_im (x : Flag) (v : Bool) (s : State) : (s.setFlagBit x v).im = s.im := rfl
@[simp] theorem State.setFlagBit_halted (x : Flag) (v : Bool) (s : State) : (s.setFlagBit x v).halted = s.halted := rfl
@[simp] theorem State.setFlagBit_tStates (x : Flag) (v : Bool) (s : State) : (s.setFlagBit x v).tStates = s.tStates := rfl
@[simp] theorem State.setFlagBit_mem (x : Flag) (v : Bool) (s : State) : (s.setFlagBit x v).mem = s.mem := rfl
@[simp] theorem State.setFlagBit_bus (x : Flag) (v : Bool) (s : State) : (s.setFlagBit x v).bus = s.bus := rfl
@[simp] theorem State.setFlagBit_faults (x : Flag) (v : Bool) (s : State) : (s.setFlagBit x v).faults = s.faults := rfl
@[simp] theorem State.setFlagBit_refusals (x : Flag) (v : Bool) (s : State) : (s.setFlagBit x v).refusals = s.refusals := rfl
@[simp] theorem State.setFlagBit_ports (x : Flag) (v : Bool) (s : State) : (s.setFlagBit x v).ports = s.ports := rfl
@[simp] theorem State.setFlagBit_f53 (x : Flag) (v : Bool) (s : State) : (s.setFlagBit x v).f53 = s.f53 := rfl
@[simp] theorem State.setFlagBit_draws (x : Flag) (v : Bool) (s : State) : (s.setFlagBit x v).draws = s.draws := rfl

/-! ### Fields after writing a memory byte (R62) -/

@[simp] theorem State.writeByte_a (p : Word) (v : Byte) (s : State) : (s.writeByte p v).a = s.a := rfl
@[simp] theorem State.writeByte_f (p : Word) (v : Byte) (s : State) : (s.writeByte p v).f = s.f := rfl
@[simp] theorem State.writeByte_b (p : Word) (v : Byte) (s : State) : (s.writeByte p v).b = s.b := rfl
@[simp] theorem State.writeByte_c (p : Word) (v : Byte) (s : State) : (s.writeByte p v).c = s.c := rfl
@[simp] theorem State.writeByte_d (p : Word) (v : Byte) (s : State) : (s.writeByte p v).d = s.d := rfl
@[simp] theorem State.writeByte_e (p : Word) (v : Byte) (s : State) : (s.writeByte p v).e = s.e := rfl
@[simp] theorem State.writeByte_h (p : Word) (v : Byte) (s : State) : (s.writeByte p v).h = s.h := rfl
@[simp] theorem State.writeByte_l (p : Word) (v : Byte) (s : State) : (s.writeByte p v).l = s.l := rfl
@[simp] theorem State.writeByte_shadowA (p : Word) (v : Byte) (s : State) : (s.writeByte p v).shadowA = s.shadowA := rfl
@[simp] theorem State.writeByte_shadowF (p : Word) (v : Byte) (s : State) : (s.writeByte p v).shadowF = s.shadowF := rfl
@[simp] theorem State.writeByte_shadowB (p : Word) (v : Byte) (s : State) : (s.writeByte p v).shadowB = s.shadowB := rfl
@[simp] theorem State.writeByte_shadowC (p : Word) (v : Byte) (s : State) : (s.writeByte p v).shadowC = s.shadowC := rfl
@[simp] theorem State.writeByte_shadowD (p : Word) (v : Byte) (s : State) : (s.writeByte p v).shadowD = s.shadowD := rfl
@[simp] theorem State.writeByte_shadowE (p : Word) (v : Byte) (s : State) : (s.writeByte p v).shadowE = s.shadowE := rfl
@[simp] theorem State.writeByte_shadowH (p : Word) (v : Byte) (s : State) : (s.writeByte p v).shadowH = s.shadowH := rfl
@[simp] theorem State.writeByte_shadowL (p : Word) (v : Byte) (s : State) : (s.writeByte p v).shadowL = s.shadowL := rfl
@[simp] theorem State.writeByte_ixh (p : Word) (v : Byte) (s : State) : (s.writeByte p v).ixh = s.ixh := rfl
@[simp] theorem State.writeByte_ixl (p : Word) (v : Byte) (s : State) : (s.writeByte p v).ixl = s.ixl := rfl
@[simp] theorem State.writeByte_iyh (p : Word) (v : Byte) (s : State) : (s.writeByte p v).iyh = s.iyh := rfl
@[simp] theorem State.writeByte_iyl (p : Word) (v : Byte) (s : State) : (s.writeByte p v).iyl = s.iyl := rfl
@[simp] theorem State.writeByte_sp (p : Word) (v : Byte) (s : State) : (s.writeByte p v).sp = s.sp := rfl
@[simp] theorem State.writeByte_pc (p : Word) (v : Byte) (s : State) : (s.writeByte p v).pc = s.pc := rfl
@[simp] theorem State.writeByte_i (p : Word) (v : Byte) (s : State) : (s.writeByte p v).i = s.i := rfl
@[simp] theorem State.writeByte_r (p : Word) (v : Byte) (s : State) : (s.writeByte p v).r = s.r := rfl
@[simp] theorem State.writeByte_iff1 (p : Word) (v : Byte) (s : State) : (s.writeByte p v).iff1 = s.iff1 := rfl
@[simp] theorem State.writeByte_iff2 (p : Word) (v : Byte) (s : State) : (s.writeByte p v).iff2 = s.iff2 := rfl
@[simp] theorem State.writeByte_im (p : Word) (v : Byte) (s : State) : (s.writeByte p v).im = s.im := rfl
@[simp] theorem State.writeByte_halted (p : Word) (v : Byte) (s : State) : (s.writeByte p v).halted = s.halted := rfl
@[simp] theorem State.writeByte_tStates (p : Word) (v : Byte) (s : State) : (s.writeByte p v).tStates = s.tStates := rfl
@[simp] theorem State.writeByte_mem (p : Word) (v : Byte) (s : State) : (s.writeByte p v).mem = s.mem.write p.toNat v := rfl
@[simp] theorem State.writeByte_bus (p : Word) (v : Byte) (s : State) : (s.writeByte p v).bus = s.bus := rfl
@[simp] theorem State.writeByte_faults (p : Word) (v : Byte) (s : State) : (s.writeByte p v).faults = s.faults := rfl
@[simp] theorem State.writeByte_refusals (p : Word) (v : Byte) (s : State) : (s.writeByte p v).refusals = s.refusals := rfl
@[simp] theorem State.writeByte_ports (p : Word) (v : Byte) (s : State) : (s.writeByte p v).ports = s.ports := rfl
@[simp] theorem State.writeByte_f53 (p : Word) (v : Byte) (s : State) : (s.writeByte p v).f53 = s.f53 := rfl
@[simp] theorem State.writeByte_draws (p : Word) (v : Byte) (s : State) : (s.writeByte p v).draws = s.draws := rfl

/-! ### Fields after writing F5 and F3 (R7) -/

@[simp] theorem State.writeF53_a (r5 r3 : Bool) (s : State) : (s.writeF53 r5 r3).a = s.a := rfl
@[simp] theorem State.writeF53_f (r5 r3 : Bool) (s : State) : (s.writeF53 r5 r3).f = setFlag (setFlag s.f .f5 (f53Value s.f53 s.draws r5)) .f3 (f53Value s.f53 (s.draws + 1) r3) := rfl
@[simp] theorem State.writeF53_b (r5 r3 : Bool) (s : State) : (s.writeF53 r5 r3).b = s.b := rfl
@[simp] theorem State.writeF53_c (r5 r3 : Bool) (s : State) : (s.writeF53 r5 r3).c = s.c := rfl
@[simp] theorem State.writeF53_d (r5 r3 : Bool) (s : State) : (s.writeF53 r5 r3).d = s.d := rfl
@[simp] theorem State.writeF53_e (r5 r3 : Bool) (s : State) : (s.writeF53 r5 r3).e = s.e := rfl
@[simp] theorem State.writeF53_h (r5 r3 : Bool) (s : State) : (s.writeF53 r5 r3).h = s.h := rfl
@[simp] theorem State.writeF53_l (r5 r3 : Bool) (s : State) : (s.writeF53 r5 r3).l = s.l := rfl
@[simp] theorem State.writeF53_shadowA (r5 r3 : Bool) (s : State) : (s.writeF53 r5 r3).shadowA = s.shadowA := rfl
@[simp] theorem State.writeF53_shadowF (r5 r3 : Bool) (s : State) : (s.writeF53 r5 r3).shadowF = s.shadowF := rfl
@[simp] theorem State.writeF53_shadowB (r5 r3 : Bool) (s : State) : (s.writeF53 r5 r3).shadowB = s.shadowB := rfl
@[simp] theorem State.writeF53_shadowC (r5 r3 : Bool) (s : State) : (s.writeF53 r5 r3).shadowC = s.shadowC := rfl
@[simp] theorem State.writeF53_shadowD (r5 r3 : Bool) (s : State) : (s.writeF53 r5 r3).shadowD = s.shadowD := rfl
@[simp] theorem State.writeF53_shadowE (r5 r3 : Bool) (s : State) : (s.writeF53 r5 r3).shadowE = s.shadowE := rfl
@[simp] theorem State.writeF53_shadowH (r5 r3 : Bool) (s : State) : (s.writeF53 r5 r3).shadowH = s.shadowH := rfl
@[simp] theorem State.writeF53_shadowL (r5 r3 : Bool) (s : State) : (s.writeF53 r5 r3).shadowL = s.shadowL := rfl
@[simp] theorem State.writeF53_ixh (r5 r3 : Bool) (s : State) : (s.writeF53 r5 r3).ixh = s.ixh := rfl
@[simp] theorem State.writeF53_ixl (r5 r3 : Bool) (s : State) : (s.writeF53 r5 r3).ixl = s.ixl := rfl
@[simp] theorem State.writeF53_iyh (r5 r3 : Bool) (s : State) : (s.writeF53 r5 r3).iyh = s.iyh := rfl
@[simp] theorem State.writeF53_iyl (r5 r3 : Bool) (s : State) : (s.writeF53 r5 r3).iyl = s.iyl := rfl
@[simp] theorem State.writeF53_sp (r5 r3 : Bool) (s : State) : (s.writeF53 r5 r3).sp = s.sp := rfl
@[simp] theorem State.writeF53_pc (r5 r3 : Bool) (s : State) : (s.writeF53 r5 r3).pc = s.pc := rfl
@[simp] theorem State.writeF53_i (r5 r3 : Bool) (s : State) : (s.writeF53 r5 r3).i = s.i := rfl
@[simp] theorem State.writeF53_r (r5 r3 : Bool) (s : State) : (s.writeF53 r5 r3).r = s.r := rfl
@[simp] theorem State.writeF53_iff1 (r5 r3 : Bool) (s : State) : (s.writeF53 r5 r3).iff1 = s.iff1 := rfl
@[simp] theorem State.writeF53_iff2 (r5 r3 : Bool) (s : State) : (s.writeF53 r5 r3).iff2 = s.iff2 := rfl
@[simp] theorem State.writeF53_im (r5 r3 : Bool) (s : State) : (s.writeF53 r5 r3).im = s.im := rfl
@[simp] theorem State.writeF53_halted (r5 r3 : Bool) (s : State) : (s.writeF53 r5 r3).halted = s.halted := rfl
@[simp] theorem State.writeF53_tStates (r5 r3 : Bool) (s : State) : (s.writeF53 r5 r3).tStates = s.tStates := rfl
@[simp] theorem State.writeF53_mem (r5 r3 : Bool) (s : State) : (s.writeF53 r5 r3).mem = s.mem := rfl
@[simp] theorem State.writeF53_bus (r5 r3 : Bool) (s : State) : (s.writeF53 r5 r3).bus = s.bus := rfl
@[simp] theorem State.writeF53_faults (r5 r3 : Bool) (s : State) : (s.writeF53 r5 r3).faults = s.faults := rfl
@[simp] theorem State.writeF53_refusals (r5 r3 : Bool) (s : State) : (s.writeF53 r5 r3).refusals = s.refusals := rfl
@[simp] theorem State.writeF53_ports (r5 r3 : Bool) (s : State) : (s.writeF53 r5 r3).ports = s.ports := rfl
@[simp] theorem State.writeF53_f53 (r5 r3 : Bool) (s : State) : (s.writeF53 r5 r3).f53 = s.f53 := rfl
@[simp] theorem State.writeF53_draws (r5 r3 : Bool) (s : State) : (s.writeF53 r5 r3).draws = s.draws + f53Draws s.f53 := rfl

/-! ### Fields after a fetch (R113) -/

@[simp] theorem State.fetch8_a (s : State) : (s.fetch8.2).a = s.a := rfl
@[simp] theorem State.fetch8_f (s : State) : (s.fetch8.2).f = s.f := rfl
@[simp] theorem State.fetch8_b (s : State) : (s.fetch8.2).b = s.b := rfl
@[simp] theorem State.fetch8_c (s : State) : (s.fetch8.2).c = s.c := rfl
@[simp] theorem State.fetch8_d (s : State) : (s.fetch8.2).d = s.d := rfl
@[simp] theorem State.fetch8_e (s : State) : (s.fetch8.2).e = s.e := rfl
@[simp] theorem State.fetch8_h (s : State) : (s.fetch8.2).h = s.h := rfl
@[simp] theorem State.fetch8_l (s : State) : (s.fetch8.2).l = s.l := rfl
@[simp] theorem State.fetch8_shadowA (s : State) : (s.fetch8.2).shadowA = s.shadowA := rfl
@[simp] theorem State.fetch8_shadowF (s : State) : (s.fetch8.2).shadowF = s.shadowF := rfl
@[simp] theorem State.fetch8_shadowB (s : State) : (s.fetch8.2).shadowB = s.shadowB := rfl
@[simp] theorem State.fetch8_shadowC (s : State) : (s.fetch8.2).shadowC = s.shadowC := rfl
@[simp] theorem State.fetch8_shadowD (s : State) : (s.fetch8.2).shadowD = s.shadowD := rfl
@[simp] theorem State.fetch8_shadowE (s : State) : (s.fetch8.2).shadowE = s.shadowE := rfl
@[simp] theorem State.fetch8_shadowH (s : State) : (s.fetch8.2).shadowH = s.shadowH := rfl
@[simp] theorem State.fetch8_shadowL (s : State) : (s.fetch8.2).shadowL = s.shadowL := rfl
@[simp] theorem State.fetch8_ixh (s : State) : (s.fetch8.2).ixh = s.ixh := rfl
@[simp] theorem State.fetch8_ixl (s : State) : (s.fetch8.2).ixl = s.ixl := rfl
@[simp] theorem State.fetch8_iyh (s : State) : (s.fetch8.2).iyh = s.iyh := rfl
@[simp] theorem State.fetch8_iyl (s : State) : (s.fetch8.2).iyl = s.iyl := rfl
@[simp] theorem State.fetch8_sp (s : State) : (s.fetch8.2).sp = s.sp := rfl
@[simp] theorem State.fetch8_pc (s : State) : (s.fetch8.2).pc = s.pc + 1#16 := rfl
@[simp] theorem State.fetch8_i (s : State) : (s.fetch8.2).i = s.i := rfl
@[simp] theorem State.fetch8_r (s : State) : (s.fetch8.2).r = s.r := rfl
@[simp] theorem State.fetch8_iff1 (s : State) : (s.fetch8.2).iff1 = s.iff1 := rfl
@[simp] theorem State.fetch8_iff2 (s : State) : (s.fetch8.2).iff2 = s.iff2 := rfl
@[simp] theorem State.fetch8_im (s : State) : (s.fetch8.2).im = s.im := rfl
@[simp] theorem State.fetch8_halted (s : State) : (s.fetch8.2).halted = s.halted := rfl
@[simp] theorem State.fetch8_tStates (s : State) : (s.fetch8.2).tStates = s.tStates := rfl
@[simp] theorem State.fetch8_mem (s : State) : (s.fetch8.2).mem = s.mem := rfl
@[simp] theorem State.fetch8_bus (s : State) : (s.fetch8.2).bus = s.bus ++ [.fetch s.pc (s.readByte s.pc)] := rfl
@[simp] theorem State.fetch8_faults (s : State) : (s.fetch8.2).faults = s.faults := rfl
@[simp] theorem State.fetch8_refusals (s : State) : (s.fetch8.2).refusals = s.refusals := rfl
@[simp] theorem State.fetch8_ports (s : State) : (s.fetch8.2).ports = s.ports := rfl
@[simp] theorem State.fetch8_f53 (s : State) : (s.fetch8.2).f53 = s.f53 := rfl
@[simp] theorem State.fetch8_draws (s : State) : (s.fetch8.2).draws = s.draws := rfl

@[simp] theorem f53Value_copyResult (draw : Nat) (r : Bool) : f53Value .copyResult draw r = r := rfl

@[simp] theorem f53Value_any (draw : Nat) (r : Bool) : f53Value .any draw r = Config.freeBit draw := rfl

@[simp] theorem f53Draws_copyResult : f53Draws .copyResult = 0 := rfl

@[simp] theorem f53Draws_any : f53Draws .any = 2 := rfl

@[simp] theorem State.fetch8_fst (s : State) : s.fetch8.1 = s.readByte s.pc := rfl

end Sys2Proof.Machine
end

