-- ==== Sys2Proof/Laws/Flags.lean ====
section
/-! SUPPORT. Laws of the flags: a flag reads as written and the other seven keep their values (R31), and what each flag block of the spec leaves. -/

namespace Sys2Proof.Machine

theorem getFlag_setFlag_same (f : Byte) (x : Flag) (v : Bool) : getFlag (setFlag f x v) x = v := by
  cases x <;> cases v <;> revert f <;> decide

theorem getFlag_setFlag_other (f : Byte) {x y : Flag} (v : Bool) (h : y ≠ x) : getFlag (setFlag f x v) y = getFlag f y := by
  cases x <;> cases y <;> first | exact absurd rfl h | (cases v <;> revert f <;> decide)

theorem getFlag_setFlag (f : Byte) (x y : Flag) (v : Bool) : getFlag (setFlag f x v) y = if y = x then v else getFlag f y := by
  split
  · next h => rw [h, getFlag_setFlag_same]
  · next h => exact getFlag_setFlag_other f v h

@[simp] theorem State.flag_setFlagBit (x y : Flag) (v : Bool) (s : State) : (s.setFlagBit x v).flag y = if y = x then v else s.flag y :=
  getFlag_setFlag s.f x y v

/-- The F5 and F3 writes, flag by flag: F5 and F3 as the policy says, the others kept (R7). -/
@[simp] theorem State.flag_writeF53 (x : Flag) (r5 r3 : Bool) (s : State) :
    (s.writeF53 r5 r3).flag x =
      if x = .f3 then f53Value s.f53 (s.draws + 1) r3 else if x = .f5 then f53Value s.f53 s.draws r5 else s.flag x := by
  simp only [State.flag, State.writeF53_f, getFlag_setFlag]

/-! A flag block writes F and, under the policy ANY, the draw counter, and nothing else. -/

theorem State.inc8Flags_frame (v : Byte) (s : State) : ∃ f d, s.inc8Flags v = { s with f := f, draws := d } := by
  simp only [State.inc8Flags, State.setFlagBit, State.writeF53]; exact ⟨_, _, rfl⟩

theorem State.dec8Flags_frame (v : Byte) (s : State) : ∃ f d, s.dec8Flags v = { s with f := f, draws := d } := by
  simp only [State.dec8Flags, State.setFlagBit, State.writeF53]; exact ⟨_, _, rfl⟩

theorem State.add16Flags_frame (a b : Word) (s : State) : ∃ f d, s.add16Flags a b = { s with f := f, draws := d } := by
  simp only [State.add16Flags, State.setFlagBit, State.writeF53]; exact ⟨_, _, rfl⟩

theorem State.rotateFlags_frame (r : Byte) (c : Bool) (s : State) : ∃ f d, s.rotateFlags r c = { s with f := f, draws := d } := by
  simp only [State.rotateFlags, State.setFlagBit, State.writeF53]; exact ⟨_, _, rfl⟩

end Sys2Proof.Machine
end

