-- ==== Sys2Proof/Laws/Registers.lean ====
section
/-! SUPPORT. Laws of the register file: a register reads as written, the others keep their values, and a pair is its two halves. -/

namespace Sys2Proof.Machine

@[simp] theorem State.readReg8_writeReg8_same (x : Reg8) (v : Byte) (s : State) : (s.writeReg8 x v).readReg8 x = v := by
  cases x <;> rfl

theorem State.readReg8_writeReg8_other {x y : Reg8} (v : Byte) (s : State) (h : y ≠ x) : (s.writeReg8 x v).readReg8 y = s.readReg8 y := by
  cases x <;> cases y <;> first | rfl | exact absurd rfl h

theorem Pair.high_ne_low (p : Pair) : p.high ≠ p.low := by cases p <;> decide

/-- A register write changes nothing that is no register. -/
theorem State.writeReg8_frame (x : Reg8) (v : Byte) (s : State) :
    (s.writeReg8 x v).sp = s.sp ∧ (s.writeReg8 x v).pc = s.pc ∧ (s.writeReg8 x v).iff1 = s.iff1 ∧ (s.writeReg8 x v).iff2 = s.iff2 ∧
    (s.writeReg8 x v).im = s.im ∧ (s.writeReg8 x v).halted = s.halted ∧ (s.writeReg8 x v).tStates = s.tStates ∧
    (s.writeReg8 x v).mem = s.mem ∧ (s.writeReg8 x v).bus = s.bus ∧ (s.writeReg8 x v).faults = s.faults ∧
    (s.writeReg8 x v).refusals = s.refusals ∧ (s.writeReg8 x v).ports = s.ports ∧ (s.writeReg8 x v).f53 = s.f53 ∧
    (s.writeReg8 x v).draws = s.draws := by
  cases x <;> exact ⟨rfl, rfl, rfl, rfl, rfl, rfl, rfl, rfl, rfl, rfl, rfl, rfl, rfl, rfl⟩

theorem joinBytes_toNat (hi lo : Byte) : (joinBytes hi lo).toNat = hi.toNat * 256 + lo.toNat := by
  have := lo.isLt
  simp only [joinBytes, BitVec.toNat_append]
  rw [Nat.shiftLeft_eq, Nat.mul_comm, ← Nat.two_pow_add_eq_or_of_lt this]

theorem loByte_toNat (w : Word) : (loByte w).toNat = w.toNat % 256 := by simp [loByte, BitVec.extractLsb'_toNat]

theorem hiByte_toNat (w : Word) : (hiByte w).toNat = w.toNat / 256 := by
  have := w.isLt
  simp only [hiByte, BitVec.extractLsb'_toNat, Nat.shiftRight_eq_div_pow]
  omega

@[simp] theorem joinBytes_hi_lo (w : Word) : joinBytes (hiByte w) (loByte w) = w := by
  apply BitVec.eq_of_toNat_eq
  rw [joinBytes_toNat, hiByte_toNat, loByte_toNat]
  omega

@[simp] theorem loByte_joinBytes (hi lo : Byte) : loByte (joinBytes hi lo) = lo := by
  apply BitVec.eq_of_toNat_eq
  have := lo.isLt
  rw [loByte_toNat, joinBytes_toNat]
  omega

@[simp] theorem hiByte_joinBytes (hi lo : Byte) : hiByte (joinBytes hi lo) = hi := by
  apply BitVec.eq_of_toNat_eq
  have := lo.isLt
  rw [hiByte_toNat, joinBytes_toNat]
  omega

/-- A pair reads as written (R23). -/
@[simp] theorem State.readPair_writePair_same (p : Pair) (v : Word) (s : State) : (s.writePair p v).readPair p = v := by
  rw [State.readPair, State.writePair, State.readReg8_writeReg8_other _ _ (Pair.high_ne_low p), State.readReg8_writeReg8_same,
    State.readReg8_writeReg8_same, joinBytes_hi_lo]

end Sys2Proof.Machine
end

