-- ==== Sys2Proof/Laws/Exec.lean ====
section
/-! SUPPORT. What the shared operations of the instructions can do, each said once, and that every instruction completes. -/

namespace Sys2Proof.Machine

/-- INC8's flags, each once (R140). -/
theorem State.flag_inc8Flags (v : Byte) (s : State) :
    (s.inc8Flags v).flag .s = (v + 1#8).getLsbD 7 ∧ (s.inc8Flags v).flag .z = (v + 1#8 == 0x00#8) ∧
    (s.inc8Flags v).flag .f5 = f53Value s.f53 s.draws ((v + 1#8).getLsbD 5) ∧ (s.inc8Flags v).flag .h = (v.extractLsb' 0 4 == 0xF#4) ∧
    (s.inc8Flags v).flag .f3 = f53Value s.f53 (s.draws + 1) ((v + 1#8).getLsbD 3) ∧ (s.inc8Flags v).flag .pv = (v == 0x7F#8) ∧
    (s.inc8Flags v).flag .n = false ∧ (s.inc8Flags v).flag .c = s.flag .c := by
  simp [State.inc8Flags]

/-- DEC8's flags, each once (R141). -/
theorem State.flag_dec8Flags (v : Byte) (s : State) :
    (s.dec8Flags v).flag .s = (v - 1#8).getLsbD 7 ∧ (s.dec8Flags v).flag .z = (v - 1#8 == 0x00#8) ∧
    (s.dec8Flags v).flag .f5 = f53Value s.f53 s.draws ((v - 1#8).getLsbD 5) ∧ (s.dec8Flags v).flag .h = (v.extractLsb' 0 4 == 0x0#4) ∧
    (s.dec8Flags v).flag .f3 = f53Value s.f53 (s.draws + 1) ((v - 1#8).getLsbD 3) ∧ (s.dec8Flags v).flag .pv = (v == 0x80#8) ∧
    (s.dec8Flags v).flag .n = true ∧ (s.dec8Flags v).flag .c = s.flag .c := by
  simp [State.dec8Flags]

/-- The 16-bit add's flags, each once (R162). -/
theorem State.flag_add16Flags (a b : Word) (s : State) :
    (s.add16Flags a b).flag .f5 = f53Value s.f53 s.draws ((a + b).getLsbD 13) ∧
    (s.add16Flags a b).flag .h = decide (0x1000 ≤ a.toNat % 0x1000 + b.toNat % 0x1000) ∧
    (s.add16Flags a b).flag .f3 = f53Value s.f53 (s.draws + 1) ((a + b).getLsbD 11) ∧ (s.add16Flags a b).flag .n = false ∧
    (s.add16Flags a b).flag .c = decide (0x10000 ≤ a.toNat + b.toNat) ∧ (s.add16Flags a b).flag .s = s.flag .s ∧
    (s.add16Flags a b).flag .z = s.flag .z ∧ (s.add16Flags a b).flag .pv = s.flag .pv := by
  simp [State.add16Flags]

/-- The rotates' flags, each once (R190, R191). -/
theorem State.flag_rotateFlags (r : Byte) (c : Bool) (s : State) :
    (s.rotateFlags r c).flag .c = c ∧ (s.rotateFlags r c).flag .h = false ∧ (s.rotateFlags r c).flag .n = false ∧
    (s.rotateFlags r c).flag .f5 = f53Value s.f53 s.draws (r.getLsbD 5) ∧
    (s.rotateFlags r c).flag .f3 = f53Value s.f53 (s.draws + 1) (r.getLsbD 3) ∧ (s.rotateFlags r c).flag .s = s.flag .s ∧
    (s.rotateFlags r c).flag .z = s.flag .z ∧ (s.rotateFlags r c).flag .pv = s.flag .pv := by
  simp [State.rotateFlags]

/-- The exchange of AF and AF': both pairs swap whole (R180). -/
theorem State.exchange_af (s : State) :
    s.exchange .af .shadowAF = { s with a := s.shadowA, f := s.shadowF, shadowA := s.a, shadowF := s.f } := by
  simp [State.exchange, State.writePair, State.readPair, State.writeReg8, State.readReg8, Pair.high, Pair.low]

/-- Every instruction completes, in every state. -/
theorem exec_completes (i : Instr) (s : State) : ∃ t, exec i s = .next t := by
  cases i <;> exact ⟨_, rfl⟩

/-- What an instruction can change, whichever it is: the registers of R25's table, F and the draw counter, halted, memory and the bus history. -/
theorem exec_frame (i : Instr) {s t : State} (h : exec i s = .next t) :
    t = { s with
      a := t.a, f := t.f, b := t.b, c := t.c, h := t.h, l := t.l, shadowA := t.shadowA, shadowF := t.shadowF,
      halted := t.halted, mem := t.mem, bus := t.bus, draws := t.draws } := by
  cases i <;> injection h with h
  case incB => obtain ⟨f, d, e⟩ := State.inc8Flags_frame s.b s; subst h; simp only [State.inc8, State.readReg8, e]; rfl
  case incC => obtain ⟨f, d, e⟩ := State.inc8Flags_frame s.c s; subst h; simp only [State.inc8, State.readReg8, e]; rfl
  case decB => obtain ⟨f, d, e⟩ := State.dec8Flags_frame s.b s; subst h; simp only [State.dec8, State.readReg8, e]; rfl
  case decC => obtain ⟨f, d, e⟩ := State.dec8Flags_frame s.c s; subst h; simp only [State.dec8, State.readReg8, e]; rfl
  case rlca => obtain ⟨f, d, e⟩ := State.rotateFlags_frame (rotateLeftByte s.a) (s.a.getLsbD 7) { s with a := rotateLeftByte s.a }; rw [e] at h; subst h; rfl
  case rrca => obtain ⟨f, d, e⟩ := State.rotateFlags_frame (rotateRightByte s.a) (s.a.getLsbD 0) { s with a := rotateRightByte s.a }; rw [e] at h; subst h; rfl
  case addHLBC =>
    obtain ⟨f, d, e⟩ := State.add16Flags_frame (s.readPair .hl) (s.readPair .bc) (s.writePair .hl (s.readPair .hl + s.readPair .bc))
    subst h; simp only [State.add16, e]; rfl
  all_goals subst h; rfl

end Sys2Proof.Machine
end

