-- ==== Sys2Proof/Laws/PerInstr.lean ====
section
/-! SUPPORT. Statements for every instruction as syntax, one lemma per constructor: what its encoding decodes to, how long it is, and its well-formedness. -/

namespace Sys2Proof.Laws.EncodingDecodes

/-- The encoding of an instruction, with any bytes after it, decodes to it and leaves those bytes. -/
def Statement (i : Instr) : Prop := ∀ rest, decode (encode i ++ rest) = .ok (i, rest)

theorem nop : Statement .nop := fun _ => rfl
theorem ldBCnn (nn : Word) : Statement (.ldBCnn nn) := fun rest => by
  show Except.ok (Instr.ldBCnn (joinBytes (hiByte nn) (loByte nn)), rest) = _
  rw [Machine.joinBytes_hi_lo]
theorem ldIndBCA : Statement .ldIndBCA := fun _ => rfl
theorem incBC : Statement .incBC := fun _ => rfl
theorem incB : Statement .incB := fun _ => rfl
theorem decB : Statement .decB := fun _ => rfl
theorem ldBn (n : Byte) : Statement (.ldBn n) := fun _ => rfl
theorem rlca : Statement .rlca := fun _ => rfl
theorem exAFAF : Statement .exAFAF := fun _ => rfl
theorem addHLBC : Statement .addHLBC := fun _ => rfl
theorem ldAIndBC : Statement .ldAIndBC := fun _ => rfl
theorem decBC : Statement .decBC := fun _ => rfl
theorem incC : Statement .incC := fun _ => rfl
theorem decC : Statement .decC := fun _ => rfl
theorem ldCn (n : Byte) : Statement (.ldCn n) := fun _ => rfl
theorem rrca : Statement .rrca := fun _ => rfl
theorem halt : Statement .halt := fun _ => rfl

end Sys2Proof.Laws.EncodingDecodes

namespace Sys2Proof.Laws.WellFormedLength

/-- An instruction is well-formed and its encoding has its format's length, 1 to 3 bytes (R85, R86). -/
def Statement (i : Instr) : Prop :=
  i.wellFormed = true ∧ (encode i).length = i.operation.length ∧ 1 ≤ i.operation.length ∧ i.operation.length ≤ 3

theorem nop : Statement .nop := ⟨rfl, rfl, by decide, by decide⟩
theorem ldBCnn (nn : Word) : Statement (.ldBCnn nn) := ⟨by simpa [Instr.wellFormed, Instr.toLine, AsmLine.wellFormed, Instr.operation, Operation.format, Format.admits] using nn.isLt, rfl, by show (1 ≤ 3); decide, by show (3 ≤ 3); decide⟩
theorem ldIndBCA : Statement .ldIndBCA := ⟨rfl, rfl, by decide, by decide⟩
theorem incBC : Statement .incBC := ⟨rfl, rfl, by decide, by decide⟩
theorem incB : Statement .incB := ⟨rfl, rfl, by decide, by decide⟩
theorem decB : Statement .decB := ⟨rfl, rfl, by decide, by decide⟩
theorem ldBn (n : Byte) : Statement (.ldBn n) := ⟨by simpa [Instr.wellFormed, Instr.toLine, AsmLine.wellFormed, Instr.operation, Operation.format, Format.admits] using n.isLt, rfl, by show (1 ≤ 2); decide, by show (2 ≤ 3); decide⟩
theorem rlca : Statement .rlca := ⟨rfl, rfl, by decide, by decide⟩
theorem exAFAF : Statement .exAFAF := ⟨rfl, rfl, by decide, by decide⟩
theorem addHLBC : Statement .addHLBC := ⟨rfl, rfl, by decide, by decide⟩
theorem ldAIndBC : Statement .ldAIndBC := ⟨rfl, rfl, by decide, by decide⟩
theorem decBC : Statement .decBC := ⟨rfl, rfl, by decide, by decide⟩
theorem incC : Statement .incC := ⟨rfl, rfl, by decide, by decide⟩
theorem decC : Statement .decC := ⟨rfl, rfl, by decide, by decide⟩
theorem ldCn (n : Byte) : Statement (.ldCn n) := ⟨by simpa [Instr.wellFormed, Instr.toLine, AsmLine.wellFormed, Instr.operation, Operation.format, Format.admits] using n.isLt, rfl, by show (1 ≤ 2); decide, by show (2 ≤ 3); decide⟩
theorem rrca : Statement .rrca := ⟨rfl, rfl, by decide, by decide⟩
theorem halt : Statement .halt := ⟨rfl, rfl, by decide, by decide⟩

end Sys2Proof.Laws.WellFormedLength
end

