-- ==== Sys2Proof/Laws/Step.lean ====
section
/-! SUPPORT. What a step can do, said once: a halted step, a decode fault, or the operation of a defined entry. -/

namespace Sys2Proof.Machine

theorem executeInstruction_halted {s : State} (h : s.halted = true) : executeInstruction s = ⟨.ok, s.haltedStep⟩ := by
  simp only [executeInstruction, h, if_true]

/-- A running step hands the fetched byte's entry to the engine (R110). -/
theorem executeInstruction_running {s : State} (h : s.halted = false) :
    executeInstruction s = runEntry (dispatchTable (s.readByte s.pc)) (s.readByte s.pc) s s.fetch8.2.refresh := by
  simp only [executeInstruction, h, Bool.false_eq_true, if_false, State.fetchOpcode, State.fetch8_fst]

/-- An undefined entry raises DecodeFault, which gives PC and R back (R221). -/
theorem executeInstruction_undefined {s : State} (h : s.halted = false) (hd : dispatchTable (s.readByte s.pc) = .undefined) :
    executeInstruction s =
      ⟨.fault (.decodeFault s.pc (s.readByte s.pc)),
        { s with bus := s.bus ++ [.fetch s.pc (s.readByte s.pc)], faults := s.faults ++ [.decodeFault s.pc (s.readByte s.pc)] }⟩ := by
  rw [executeInstruction_running h, hd]
  rfl

/-- A defined entry runs its operation on the state past the fetches and adds its cost (R110). -/
theorem executeInstruction_defined {s t : State} {o : Operation} {cost : Nat} (h : s.halted = false)
    (hd : dispatchTable (s.readByte s.pc) = .defined o cost)
    (he : exec (s.fetch8.2.refresh.fetchOperands o).1 (s.fetch8.2.refresh.fetchOperands o).2 = .next t) :
    executeInstruction s = ⟨.ok, t.addTStates cost⟩ := by
  rw [executeInstruction_running h, hd]
  simp only [runEntry, he]

/-- Every way a step can end in a next state. -/
theorem step_cases {s t : State} (h : step s = .next t) :
    (s.halted = true ∧ t = s.haltedStep) ∨
    (s.halted = false ∧ ∃ o cost u, dispatchTable (s.readByte s.pc) = .defined o cost ∧
      exec (s.fetch8.2.refresh.fetchOperands o).1 (s.fetch8.2.refresh.fetchOperands o).2 = .next u ∧ t = u.addTStates cost) := by
  cases hh : s.halted with
  | true =>
    rw [step, executeInstruction_halted hh] at h
    injection h with h
    exact .inl ⟨rfl, h.symm⟩
  | false =>
    cases hd : dispatchTable (s.readByte s.pc) with
    | undefined =>
      rw [step, executeInstruction_undefined hh hd] at h
      injection h
    | defined o cost =>
      obtain ⟨u, hu⟩ := exec_completes (s.fetch8.2.refresh.fetchOperands o).1 (s.fetch8.2.refresh.fetchOperands o).2
      rw [step, executeInstruction_defined hh hd hu] at h
      injection h with h
      exact .inr ⟨rfl, o, cost, u, rfl, hu, h.symm⟩

/-- The instruction an operation's operand fetches complete is one of that operation. -/
theorem State.fetchOperands_operation (o : Operation) (s : State) : (s.fetchOperands o).1.operation = o := by cases o <;> rfl

/-- No operand: nothing is fetched. -/
theorem State.fetchOperands_implied {o : Operation} {i : Instr} (h : o.shape = .implied i) (s : State) : s.fetchOperands o = (i, s) := by
  simp only [State.fetchOperands, h]

/-- The operand `n` is the byte at PC (R113). -/
theorem State.fetchOperands_imm8 {o : Operation} {build : Byte → Instr} (h : o.shape = .imm8 build) (s : State) :
    s.fetchOperands o =
      (build (s.readByte s.pc), { s with pc := s.pc + 1#16, bus := s.bus ++ [.fetch s.pc (s.readByte s.pc)] }) := by
  simp only [State.fetchOperands, h]
  rfl

/-- The operand `nn` has its low byte at PC and its high byte at the next address (R114). -/
theorem State.fetchOperands_imm16 {o : Operation} {build : Word → Instr} (h : o.shape = .imm16 build) (s : State) :
    s.fetchOperands o =
      (build (joinBytes (s.readByte (s.pc + 1#16)) (s.readByte s.pc)),
        { s with
          pc := s.pc + 1#16 + 1#16,
          bus := s.bus ++ [.fetch s.pc (s.readByte s.pc)] ++ [.fetch (s.pc + 1#16) (s.readByte (s.pc + 1#16))] }) := by
  simp only [State.fetchOperands, h]
  rfl

/-- Operand fetches change PC and the bus history alone: PC advances by the operand bytes (R113, R114). -/
theorem State.fetchOperands_eq (o : Operation) (s : State) :
    (s.fetchOperands o).2 = { s with pc := s.pc + BitVec.ofNat 16 (o.length - 1), bus := (s.fetchOperands o).2.bus } := by
  cases o <;>
    first
      | (show s = { s with pc := s.pc + 0, bus := s.bus }; simp)
      | rfl
      | (show s.fetch8.2.fetch8.2 = _
         simp only [State.fetch8, State.record, Operation.length, Operation.format, Format.length, BitVec.add_assoc]
         rfl)

end Sys2Proof.Machine
end

