-- ==== Sys2Proof/Laws/Run.lean ====
section
/-! SUPPORT. One unfolding of the host's run of steps and of the run of R119. -/

namespace Sys2Proof.Machine

theorem core_run_zero (s : State) : core.run 0 s = .next s := rfl

/-- A run whose first step answers a next state goes on from it. -/
theorem core_run_next {s t : State} (n : Nat) (h : step s = .next t) : core.run (n + 1) s = core.run n t := by
  have h' : core.step s = .next t := h
  simp only [Host.Core.run, h']

/-- A run whose first step faults is that fault. -/
theorem core_run_fault {s : State} {f : Fault} (n : Nat) (h : step s = .fault f) : core.run (n + 1) s = .fault f := by
  have h' : core.step s = .fault f := h
  simp only [Host.Core.run, h']

/-- `step` answers a next state exactly when `executeInstruction` is Ok, and it is the same state (R117). -/
theorem step_next_iff {s t : State} : step s = .next t ↔ executeInstruction s = ⟨.ok, t⟩ := by
  rcases h : executeInstruction s with ⟨o, u⟩
  cases o <;> simp [step, h, StepResult.toOutcome]

/-- One step of a run (R119). -/
theorem run_ok {s t : State} (n : Nat) (h : executeInstruction s = ⟨.ok, t⟩) : run (n + 1) s = if t.halted then .clean t else run n t := by
  simp only [run, h]

/-- A faulting step ends a run (R119(b)). -/
theorem run_fault {s t : State} {f : Fault} (n : Nat) (h : executeInstruction s = ⟨.fault f, t⟩) : run (n + 1) s = .faulted t f := by
  simp only [run, h]

end Sys2Proof.Machine
end

