-- ==== Sys2Proof/Tests/Slice0.lean ====
section
/-! SUPPORT. The model's own tests, their expected results taken from the vectors of 95_test_vectors.md or the rules named; the WellFormed smoke tests; and, for
each statement with hypotheses, a state and operands that meet them. -/

open Sys2Proof Sys2Proof.Machine

namespace Sys2Proof.Tests

/-- The next state of a step, if it has one. -/
def stepped (s : State) : Option State :=
  match step s with
  | .next t => some t
  | .fault _ => none
  | .refused _ => none

/-- The next state of an instruction, if it has one. -/
def executed (i : Instr) (s : State) : Option State :=
  match exec i s with
  | .next t => some t
  | .fault _ => none
  | .refused _ => none

/-- The reset state with an opcode byte at PC. -/
def at0 (op : Nat) : State := State.reset.withFetchWord 8 op

/-! ### WellFormed -/

/-- R86: LD B,n without its immediate. -/
theorem test_wellFormed_refuses_missing : AsmLine.wellFormed ⟨.ldBn, none⟩ = false ∧ AsmLine.wellFormed ⟨.ldBCnn, none⟩ = false := by decide

/-- R86: NOP with an immediate. -/
theorem test_wellFormed_refuses_surplus : AsmLine.wellFormed ⟨.nop, some 0⟩ = false := by decide

/-- R86: immediates one above their fields. -/
theorem test_wellFormed_refuses_wide :
    AsmLine.wellFormed ⟨.ldCn, some 256⟩ = false ∧ AsmLine.wellFormed ⟨.ldBCnn, some 65536⟩ = false ∧
    AsmLine.wellFormed ⟨.ldCn, some 255⟩ = true ∧ AsmLine.wellFormed ⟨.ldBCnn, some 65535⟩ = true := by decide

/-! ### Decoding: each constructor's word, written out from R86 and R90 -/

theorem test_decode_nop : decode [0b00000000#8] = .ok (.nop, []) := rfl
theorem test_decode_ldBCnn : (decode [0b00000001#8, 0x12#8, 0x34#8]).toOption = some (.ldBCnn 0x3412#16, []) := by decide
theorem test_decode_ldIndBCA : decode [0b00000010#8] = .ok (.ldIndBCA, []) := rfl
theorem test_decode_incBC : decode [0b00000011#8] = .ok (.incBC, []) := rfl
theorem test_decode_incB : decode [0b00000100#8] = .ok (.incB, []) := rfl
theorem test_decode_decB : decode [0b00000101#8] = .ok (.decB, []) := rfl
theorem test_decode_ldBn : decode [0b00000110#8, 0x5A#8] = .ok (.ldBn 0x5A#8, []) := rfl
theorem test_decode_rlca : decode [0b00000111#8] = .ok (.rlca, []) := rfl
theorem test_decode_exAFAF : decode [0b00001000#8] = .ok (.exAFAF, []) := rfl
theorem test_decode_addHLBC : decode [0b00001001#8] = .ok (.addHLBC, []) := rfl
theorem test_decode_ldAIndBC : decode [0b00001010#8] = .ok (.ldAIndBC, []) := rfl
theorem test_decode_decBC : decode [0b00001011#8] = .ok (.decBC, []) := rfl
theorem test_decode_incC : decode [0b00001100#8] = .ok (.incC, []) := rfl
theorem test_decode_decC : decode [0b00001101#8] = .ok (.decC, []) := rfl
theorem test_decode_ldCn : decode [0b00001110#8, 0x77#8] = .ok (.ldCn 0x77#8, []) := rfl
theorem test_decode_rrca : decode [0b00001111#8] = .ok (.rrca, []) := rfl
theorem test_decode_halt : decode [0b01110110#8] = .ok (.halt, []) := rfl

/-- R92, R95: refusals by name; a prefix byte is refused at that byte. -/
theorem test_decode_refusals :
    decode [] = .error .noBytes ∧ decode [0xCB#8, 0x07#8] = .error (.undefinedOpcode 0xCB#8) ∧
    decode [0x01#8, 0x12#8] = .error (.operandMissing .ldBCnn) := ⟨rfl, rfl, rfl⟩

/-- R97: `LD BC,0x3412` is 01 12 34. -/
theorem test_assemble : AsmLine.assemble ⟨.ldBCnn, some 0x3412⟩ = some [0x01#8, 0x12#8, 0x34#8] := by decide

/-- R88: the field view of INC C has y = 1 (register C) and z = 4; of HALT, x = 1, y = 6, z = 6. -/
theorem test_opcodeFields : opcodeFields 0x0C#8 = ⟨0, 1, 4, 0, 1⟩ ∧ opcodeFields 0x76#8 = ⟨1, 6, 6, 3, 0⟩ := by decide

/-- The table's bits: the first byte lowest. -/
theorem test_decodeTableWord : decodeTableWord 24 0x341201 = some (.ldBCnn 0x3412#16) ∧ decodeTableWord 8 0x06 = some (.ldBn 0x00#8) := by decide

/-! ### One step each -/

/-- W5. -/
theorem test_nop : (stepped (at0 0x00)).map (fun t => (t.pc, t.r, t.tStates)) = some (0x0001#16, 0x01#8, 4) := by decide

/-- V5, V3: PC wraps, R.hold stays. -/
theorem test_nop_wraps :
    (stepped ({ State.reset with pc := 0xFFFF#16, r := 0xFF#8 }.withFetchWord 8 0x00)).map (fun t => (t.pc, t.r)) = some (0x0000#16, 0x80#8) := by decide

/-- W6. -/
theorem test_ldBCnn :
    (stepped (State.reset.withFetchWord 24 0x341201)).map (fun t => (t.b, t.c, t.pc, t.r, t.tStates)) =
      some (0x34#8, 0x12#8, 0x0003#16, 0x01#8, 10) := by decide

/-- V75: the operand wraps round the top of memory. -/
theorem test_ldBCnn_wraps :
    (stepped ({ State.reset with pc := 0xFFFE#16 }.withFetchWord 24 0xABCD01)).map (fun t => (t.readPair .bc, t.pc, t.bus)) =
      some (0xABCD#16, 0x0001#16, [.fetch 0xFFFE#16 0x01#8, .fetch 0xFFFF#16 0xCD#8, .fetch 0x0000#16 0xAB#8]) := by decide

/-- V77. -/
theorem test_ldIndBCA :
    (stepped ({ State.reset with a := 0x42#8, b := 0x80#8 }.withFetchWord 8 0x02)).map (fun t => (t.readByte 0x8000#16, t.pc, t.tStates, t.bus)) =
      some (0x42#8, 0x0001#16, 7, [.fetch 0x0000#16 0x02#8, .write 0x8000#16 0x42#8]) := by decide

/-- W7. -/
theorem test_incBC :
    (stepped ({ State.reset with b := 0x78#8, c := 0x9A#8 }.withFetchWord 8 0x03)).map (fun t => (t.b, t.c, t.f, t.tStates)) =
      some (0x78#8, 0x9B#8, 0x00#8, 6) := by decide

/-- V41: the carry goes into B; F is kept. -/
theorem test_incBC_carries :
    (executed .incBC { State.reset with b := 0x12#8, c := 0xFF#8, f := 0xAA#8 }).map (fun t => (t.b, t.c, t.f)) = some (0x13#8, 0x00#8, 0xAA#8) := by decide

/-- V22. -/
theorem test_incB_overflow : (executed .incB { State.reset with b := 0x7F#8 }).map (fun t => (t.b, t.f)) = some (0x80#8, 0x94#8) := by decide

/-- V27. -/
theorem test_incB_keeps_carry : (executed .incB { State.reset with b := 0xFE#8, f := 0xFF#8 }).map (fun t => (t.b, t.f)) = some (0xFF#8, 0xA9#8) := by decide

/-- V30. -/
theorem test_decB_overflow : (executed .decB { State.reset with b := 0x80#8 }).map (fun t => (t.b, t.f)) = some (0x7F#8, 0x3E#8) := by decide

/-- V34. -/
theorem test_decB_keeps_carry : (executed .decB { State.reset with b := 0x81#8, f := 0xFF#8 }).map (fun t => (t.b, t.f)) = some (0x80#8, 0x83#8) := by decide

/-- V78. -/
theorem test_ldBn :
    (stepped ({ State.reset with c := 0x33#8 }.withFetchWord 16 0x5A06)).map (fun t => (t.readPair .bc, t.pc, t.tStates)) =
      some (0x5A33#16, 0x0002#16, 7) := by decide

/-- V64. -/
theorem test_rlca : (executed .rlca { State.reset with a := 0x94#8 }).map (fun t => (t.a, t.f)) = some (0x29#8, 0x29#8) := by decide

/-- V65: the old carry is not rotated in. -/
theorem test_rlca_circular : (executed .rlca { State.reset with a := 0x7F#8, f := 0x01#8 }).map (fun t => (t.a, t.f)) = some (0xFE#8, 0x28#8) := by decide

/-- W9. -/
theorem test_exAFAF :
    (stepped ({ State.reset with a := 0xDE#8, f := 0xF0#8, shadowA := 0x12#8, shadowF := 0x34#8 }.withFetchWord 8 0x08)).map
      (fun t => (t.readPair .af, t.readPair .shadowAF, t.tStates)) = some (0x1234#16, 0xDEF0#16, 4) := by decide

/-- W8. -/
theorem test_addHLBC :
    (stepped ({ State.reset with f := 0xF0#8, b := 0x56#8, c := 0x78#8, h := 0x9A#8, l := 0xBC#8 }.withFetchWord 8 0x09)).map
      (fun t => (t.readPair .hl, t.f, t.tStates)) = some (0xF134#16, 0xF0#8, 11) := by decide

/-- V53: no overflow is reported. -/
theorem test_addHLBC_keeps_pv :
    (executed .addHLBC { State.reset with f := 0xFF#8, c := 0x01#8, h := 0x7F#8, l := 0xFF#8 }).map (fun t => (t.readPair .hl, t.f)) =
      some (0x8000#16, 0xD4#8) := by decide

/-- V79. -/
theorem test_ldAIndBC :
    (stepped (({ State.reset with b := 0x80#8, f := 0x5A#8 }.writeByte 0x8000#16 0x99#8).withFetchWord 8 0x0A)).map (fun t => (t.a, t.f, t.bus)) =
      some (0x99#8, 0x5A#8, [.fetch 0x0000#16 0x0A#8, .read 0x8000#16 0x99#8]) := by decide

/-- V80: it reads its own opcode. -/
theorem test_ldAIndBC_self : (stepped (at0 0x0A)).map (fun t => t.a) = some 0x0A#8 := by decide

/-- V43. -/
theorem test_decBC : (executed .decBC { State.reset with b := 0x12#8 }).map (fun t => (t.b, t.c, t.f)) = some (0x11#8, 0xFF#8, 0x00#8) := by decide

/-- V42. -/
theorem test_decBC_wraps : (executed .decBC State.reset).map (fun t => (t.readPair .bc, t.f)) = some (0xFFFF#16, 0x00#8) := by decide

/-- V36: no carry into B. -/
theorem test_incC :
    (executed .incC { State.reset with b := 0x12#8, c := 0xFF#8, f := 0x01#8 }).map (fun t => (t.b, t.c, t.f)) = some (0x12#8, 0x00#8, 0x51#8) := by decide

/-- V37: no borrow into B. -/
theorem test_decC : (executed .decC { State.reset with b := 0x12#8 }).map (fun t => (t.b, t.c, t.f)) = some (0x12#8, 0xFF#8, 0xBA#8) := by decide

/-- V81. -/
theorem test_ldCn :
    (stepped ({ State.reset with pc := 0xFFFF#16 }.withFetchWord 16 0x770E)).map (fun t => (t.c, t.pc, t.tStates)) = some (0x77#8, 0x0001#16, 7) := by decide

/-- V69. -/
theorem test_rrca : (executed .rrca { State.reset with a := 0x51#8 }).map (fun t => (t.a, t.f)) = some (0xA8#8, 0x29#8) := by decide

/-- V66: S is not set. -/
theorem test_rrca_keeps_s : (executed .rrca { State.reset with a := 0x01#8 }).map (fun t => (t.a, t.f)) = some (0x80#8, 0x01#8) := by decide

/-- V6. -/
theorem test_halt :
    (stepped ({ State.reset with pc := 0x0005#16, r := 0x03#8, tStates := 20 }.withFetchWord 8 0x76)).map (fun t => (t.halted, t.pc, t.r, t.tStates)) =
      some (true, 0x0006#16, 0x04#8, 24) := by decide

/-- V9, V18: a halted step neither fetches nor faults. -/
theorem test_halted_step :
    (stepped ({ State.reset with halted := true, r := 0xFF#8 }.writeByte 0x0000#16 0x10#8)).map (fun t => (t.r, t.tStates, t.pc, t.halted, t.bus)) =
      some (0x80#8, 4, 0x0000#16, true, []) := by decide

/-- V12. -/
theorem test_decode_fault :
    let s := { State.reset with pc := 0x0010#16, r := 0x05#8, tStates := 9 }.withFetchWord 8 0x10
    (executeInstruction s).outcome = .fault (.decodeFault 0x0010#16 0x10#8) ∧
    ((executeInstruction s).state.pc, (executeInstruction s).state.r, (executeInstruction s).state.tStates, (executeInstruction s).state.bus) =
      (0x0010#16, 0x05#8, 9, [.fetch 0x0010#16 0x10#8]) := by decide

/-- V22 under ANY: the flags other than F5 and F3 are those of INC B (F masked by 0xD7 in 95_test_vectors.md). -/
theorem test_incB_any :
    [Flag.s, .z, .h, .pv, .n, .c].map (fun x => ({ State.reset with b := 0x7F#8, f53 := .any }.inc8 .b).flag x) =
      [true, false, true, true, false, false] := by
  have h := State.flag_inc8Flags 0x7F#8 { State.reset with b := 0x7F#8, f53 := .any }
  exact congrArg₂ List.cons h.1 (congrArg₂ List.cons h.2.1 (congrArg₂ List.cons h.2.2.2.1 (congrArg₂ List.cons h.2.2.2.2.2.1
    (congrArg₂ List.cons h.2.2.2.2.2.2.1 (congrArg₂ List.cons h.2.2.2.2.2.2.2 rfl)))))

/-- R22's examples: 0x1FF to B, 0x12345 to BC. -/
theorem test_host_truncates :
    (hostCall (.writeReg8 .b 0x1FF) State.reset).state.b = 0xFF#8 ∧
    hostQuery (.readPair .bc) (hostCall (.writePair .bc 0x12345) State.reset).state = 0x2345 := by decide

/-- R131. -/
theorem test_host_im3_refused :
    (hostCall (.writeIM 3) State.reset).outcome = .refused .interruptModeThree ∧ (hostCall (.writeIM 3) State.reset).state.im = .im0 ∧
    (hostCall (.writeIM 2) State.reset).outcome = .ok ∧ (hostCall (.writeIM 2) State.reset).state.im = .im2 := by decide

/-- V10: reset leaves the halted state. -/
theorem test_host_reset : (hostCall .reset { State.reset with halted := true, tStates := 50, a := 0x01#8 }).state = State.reset := by decide

/-- R64 at 0xFFFF: the high byte is at 0x0000. -/
theorem test_word_wraps :
    ((State.reset.writeWord 0xFFFF#16 0x1234#16).readByte 0xFFFF#16, (State.reset.writeWord 0xFFFF#16 0x1234#16).readByte 0x0000#16) =
      (0x34#8, 0x12#8) := by decide

/-- R119: a launch in the halted state ends at its first step. -/
theorem test_run_end : run 1 { State.reset with halted := true } = .clean { State.reset with halted := true, r := 0x01#8, tStates := 4 } := by decide

/-! ### Witnesses: states and operands that meet the statements' hypotheses -/

/-- A step on a defined byte answers a next state, for the witnesses below. -/
theorem next_of_defined {s : State} {o : Operation} {cost : Nat} (h : s.halted = false) (hd : dispatchTable (s.readByte s.pc) = .defined o cost) :
    ∃ t, step s = .next t := by
  obtain ⟨t, ht⟩ := exec_completes (s.fetch8.2.refresh.fetchOperands o).1 (s.fetch8.2.refresh.fetchOperands o).2
  exact ⟨_, step_next_iff.2 (executeInstruction_defined h hd ht)⟩

/-- What `stepped` computes is `step`'s next state. -/
theorem next_of_stepped {s t : State} (h : stepped s = some t) : step s = .next t := by
  unfold stepped at h
  cases hs : step s <;> rw [hs] at h <;> first | injection h with h; rw [h] | cases h

/-- A state about to store 0x42 over the next instruction. -/
def storing : State := { State.reset with a := 0x42#8, c := 0x01#8 }.withFetchWord 8 0x02

/-- Its next state. -/
def stored : State :=
  { storing with pc := 0x0001#16, r := 0x01#8, tStates := 7, mem := [(0, 0x02#8), (1, 0x42#8)], bus := [.fetch 0x0000#16 0x02#8, .write 0x0001#16 0x42#8] }

theorem storing_steps : step storing = .next stored := next_of_stepped (by decide)

/-- ReadAfterWrite: both clauses, the zero byte (which unlists a cell) at the top address. -/
theorem witness_ReadAfterWrite : (State.reset.writeByte 0xFFFF#16 0x01#8).Inv ∧ (0x0000#16 : Word) ≠ 0xFFFF#16 := ⟨rfl, by decide⟩

/-- WordAccessLittleEndian: at 0xFFFF, and an address that is neither of its two. -/
theorem witness_WordAccessLittleEndian : State.reset.Inv ∧ (0x0001#16 : Word) ≠ 0xFFFF#16 ∧ (0x0001#16 : Word) ≠ 0xFFFF#16 + 1#16 := ⟨rfl, by decide, by decide⟩

/-- CanonicalMemoriesReadingAlikeAreEqual: a memory with cells at both ends. -/
theorem witness_CanonicalMemories :
    ∃ m m' : Memory, m = [(0, 0x01#8), (65535, 0x02#8)] ∧ m.wf = true ∧ m'.wf = true ∧ ∀ a, a < 2 ^ 16 → m.read a = m'.read a :=
  ⟨_, [(0, 0x01#8), (65535, 0x02#8)], rfl, by decide, by decide, fun _ _ => rfl⟩

/-- StepKeepsMemoryCanonical, with a step that stores. -/
theorem witness_StepKeepsMemoryCanonical : storing.Inv ∧ step storing = .next stored := ⟨rfl, storing_steps⟩

/-- HostCallsKeepMemoryCanonical. -/
theorem witness_HostCallsKeepMemoryCanonical : stored.Inv := rfl

/-- InterruptModeThreeRefusedAndRecorded: its clauses at the bounds. -/
theorem witness_InterruptModeThreeRefusedAndRecorded :
    2 < 3 ∧ HostCall.writeIff1 2 ≠ .executeInstruction ∧ ∀ v, HostCall.writeIff1 2 ≠ .writeIM v := ⟨by decide, by decide, fun _ => by simp⟩

/-- InterruptModeNumbersAboveThreeTruncate: both clauses, at the numbers next to their bounds. -/
theorem witness_InterruptModeNumbersAboveThree : (3 < 4 ∧ 4 % 4 ≠ 3) ∧ (3 < 6 ∧ 6 % 4 ≠ 3) ∧ 3 < 7 ∧ 7 % 4 = 3 := by decide

/-- FlagsByteAndNamedFlagsAgree: a flag that is not the one written. -/
theorem witness_FlagsByteAndNamedFlagsAgree : Flag.c ≠ Flag.s := by decide

/-- PairsComposeHighFirst: a register of neither half, and one that is not the register written. -/
theorem witness_PairsComposeHighFirst : Reg8.a ≠ Pair.bc.high ∧ Reg8.a ≠ Pair.bc.low ∧ Reg8.i ≠ Reg8.r := by decide

/-- DispatchTableEntries: the four ends of its two ranges; the bytes next to them are not in it. -/
theorem witness_DispatchTableEntries :
    UndefinedByte 0x10#8 ∧ UndefinedByte 0x75#8 ∧ UndefinedByte 0x77#8 ∧ UndefinedByte 0xFF#8 ∧ ¬UndefinedByte 0x0F#8 ∧ ¬UndefinedByte 0x76#8 := by
  unfold UndefinedByte
  decide

/-- AssemblerWritesEncoding: an ill-formed line. -/
theorem witness_AssemblerWritesEncoding : AsmLine.wellFormed ⟨.nop, some 0⟩ = false := by decide

/-- StepRunsDecodedInstruction, with operand bytes round the top of memory. -/
theorem witness_StepRunsDecodedInstruction :
    let s := { State.reset with pc := 0xFFFE#16 }.withFetchWord 24 0xABCD01
    s.halted = false ∧ decode (s.bytesFrom 3 s.pc) = .ok (.ldBCnn 0xABCD#16, []) := ⟨rfl, by rfl⟩

/-- StoredEncodingRuns, at the top of memory. -/
theorem witness_StoredEncodingRuns : ({ State.reset with pc := 0xFFFF#16 } : State).Inv ∧ ({ State.reset with pc := 0xFFFF#16 } : State).halted = false :=
  ⟨rfl, rfl⟩

/-- HaltedStepOnlyRefreshesAndCounts, HaltedForever. -/
theorem witness_halted : ({ State.reset with halted := true } : State).halted = true := rfl

/-- StepIsSequential, StoreSeenByNextFetch (both clauses), OnlyStoreChangesMemory: one storing step, over the next instruction. -/
theorem witness_storing :
    storing.Inv ∧ storing.halted = false ∧ storing.opcodeAtPC = 0x02#8 ∧ step storing = .next stored ∧ storing.indirectAddress .bc = storing.pc + 1#16 ∧
    stored.readByte 0x0001#16 ≠ storing.readByte 0x0001#16 := ⟨rfl, rfl, by decide, storing_steps, by decide, by decide⟩

/-- StepRecordsAccessesInOrder: its running clause, and its halted clause. -/
theorem witness_StepRecordsAccessesInOrder :
    (step storing = .next stored ∧ storing.halted = false ∧ decode (storing.bytesFrom 3 storing.pc) = .ok (.ldIndBCA, [0x00#8, 0x00#8])) ∧
    ∃ t, step { State.reset with halted := true } = .next t :=
  ⟨⟨storing_steps, rfl, by rfl⟩, _, step_next_iff.2 (executeInstruction_halted rfl)⟩

/-- OnlyHaltSetsOnlyResetClearsHalted: a step to the halted state, reset from it, and a call that enters it. -/
theorem witness_OnlyHaltSets :
    (∃ t, step (at0 0x76) = .next t) ∧ (hostCall .reset { State.reset with halted := true }).state.halted = false ∧
    (at0 0x76).halted = false ∧ (hostCall .executeInstruction (at0 0x76)).state.halted = true :=
  ⟨next_of_defined (o := .halt) (cost := 4) rfl (by decide), by decide, rfl, by decide⟩

/-- FaultsExactlyOnUndefinedOpcode, DecodeFaultLeavesStateAndRepeats. -/
theorem witness_undefined : (at0 0xCB).halted = false ∧ UndefinedByte (at0 0xCB).opcodeAtPC := by
  unfold UndefinedByte
  decide

/-- DecodeFaultLeavesStateAndRepeats: a call that faults. -/
theorem witness_DecodeFaultRepeats : ∃ t, executeInstruction (at0 0xCB) = ⟨.fault (.decodeFault 0x0000#16 0xCB#8), t⟩ :=
  ⟨_, executeInstruction_undefined rfl (by decide)⟩

/-- HistoryExplainsEveryRead, with a step that fetches and stores. -/
theorem witness_HistoryExplainsEveryRead : replay storing.mem storing.bus = some storing.mem ∧ step storing = .next stored := ⟨rfl, storing_steps⟩

/-- UnreachedStateKept. -/
theorem witness_UnreachedStateKept : ∃ t, step (at0 0x00) = .next t := next_of_defined (o := .nop) (cost := 4) rfl (by decide)

/-- OnlyExchangeReachesShadow: an exchange of unlike pairs. -/
theorem witness_OnlyExchangeReachesShadow :
    ((stepped ({ State.reset with a := 0xDE#8 }.withFetchWord 8 0x08)).map fun t => decide (t.shadowA ≠ State.reset.shadowA)) = some true := by decide

/-- RunEndsCleanlyAtFirstHalt, RunEndsFaultedAtFirstFault: runs that end so, and states they pass. -/
theorem witness_runs :
    (∃ t, core.run 1 (at0 0x76) = .next t ∧ t.halted = true) ∧ core.run 0 (at0 0x10) = .next (at0 0x10) ∧
    ∃ t, executeInstruction (at0 0x10) = ⟨.fault (.decodeFault 0x0000#16 0x10#8), t⟩ := by
  refine ⟨?_, core_run_zero _, _, executeInstruction_undefined rfl (by decide)⟩
  have hd : dispatchTable ((at0 0x76).readByte (at0 0x76).pc) = .defined .halt 4 := by decide
  exact ⟨_, core_run_next 0 (step_next_iff.2 (executeInstruction_defined (cost := 4) rfl hd rfl)), rfl⟩

/-- IncDecArithmeticLaws and RotateLaws: an execution of each, two in a row and eight in a row of the rotates. -/
theorem witness_laws :
    (∀ i, ∃ t, exec i State.reset = .next t) ∧ (∃ t u, exec .rlca State.reset = .next t ∧ exec .rrca t = .next u) ∧
    (∃ t u, exec .rrca State.reset = .next t ∧ exec .rlca t = .next u) ∧ (∃ t, execTimes 8 .rlca State.reset = .next t) ∧
    ∃ t, execTimes 8 .rrca State.reset = .next t :=
  ⟨fun i => exec_completes i _, ⟨_, _, rfl, rfl⟩, ⟨_, _, rfl, rfl⟩, ⟨_, rfl⟩, _, rfl⟩

/-- LdIndBCACompletes: canonical memory, an address that is not the stored one, and BC at the next opcode. -/
theorem witness_LdIndBCACompletes :
    storing.Inv ∧ (0x0002#16 : Word) ≠ storing.indirectAddress .bc ∧
    ({ storing with pc := 0x0001#16 } : State).Inv ∧ ({ storing with pc := 0x0001#16 } : State).indirectAddress .bc = 0x0001#16 :=
  ⟨rfl, by decide, rfl, by decide⟩

/-- HaltCompletes, LdBCnnCompletes, LdBnCompletes, LdCnCompletes: running states with those opcodes at PC. -/
theorem witness_StepClauses :
    ((at0 0x76).halted = false ∧ (at0 0x76).opcodeAtPC = 0x76#8) ∧ ((at0 0x01).halted = false ∧ (at0 0x01).opcodeAtPC = 0x01#8) ∧
    ((at0 0x06).halted = false ∧ (at0 0x06).opcodeAtPC = 0x06#8) ∧ (at0 0x0E).halted = false ∧ (at0 0x0E).opcodeAtPC = 0x0E#8 := by decide

/-- The two clauses of F53Written (IncBCompletes, DecBCompletes, IncCCompletes, DecCCompletes, AddHLBCCompletes, RlcaCompletes, RrcaCompletes). -/
theorem witness_F53Written : State.reset.f53 = .copyResult ∧ ({ State.reset with f53 := .any } : State).f53 = .any := ⟨rfl, rfl⟩

end Sys2Proof.Tests
end

section
/-! PROOFS. The family 10_state.md. First the rules these proofs share: what a register, pair or flag write keeps, what one instruction keeps, and what a
step that answers a next state has done; then the statements, each from those rules. -/

namespace Sys2Proof.Machine

/-! ### The register file (R22, R23) -/

/-- A register write leaves alone everything that is no 8-bit register (R23). -/
theorem sameButReg8_writeReg8 (x : Reg8) (v : Byte) (s : State) : SameButReg8 s (s.writeReg8 x v) := by
  cases x <;> rfl

theorem SameButReg8.trans {s t u : State} (hst : SameButReg8 s t) (htu : SameButReg8 t u) : SameButReg8 s u :=
  Eq.trans htu (by rw [hst])

theorem SameButReg8.halted {s t : State} (h : SameButReg8 s t) : t.halted = s.halted := by
  rw [h]

/-- A pair write is two register writes, so it too leaves alone everything that is no 8-bit register (R23). -/
theorem sameButReg8_writePair (p : Pair) (v : Word) (s : State) : SameButReg8 s (s.writePair p v) :=
  (sameButReg8_writeReg8 p.high (hiByte v) s).trans (sameButReg8_writeReg8 p.low (loByte v) _)

theorem State.readPair_toNat (p : Pair) (s : State) :
    (s.readPair p).toNat = (s.readReg8 p.high).toNat * 256 + (s.readReg8 p.low).toNat :=
  joinBytes_toNat _ _

@[simp] theorem State.readReg8_high_writePair (p : Pair) (v : Word) (s : State) : (s.writePair p v).readReg8 p.high = hiByte v := by
  rw [State.writePair, State.readReg8_writeReg8_other _ _ p.high_ne_low, State.readReg8_writeReg8_same]

@[simp] theorem State.readReg8_low_writePair (p : Pair) (v : Word) (s : State) : (s.writePair p v).readReg8 p.low = loByte v := by
  rw [State.writePair, State.readReg8_writeReg8_same]

theorem State.readReg8_writePair_other {p : Pair} {x : Reg8} (v : Word) (s : State) (hhigh : x ≠ p.high) (hlow : x ≠ p.low) :
    (s.writePair p v).readReg8 x = s.readReg8 x := by
  rw [State.writePair, State.readReg8_writeReg8_other _ _ hlow, State.readReg8_writeReg8_other _ _ hhigh]

/-- Writing the high half of a pair keeps the low half, and the pair reads as the new composition (R23). -/
theorem State.readPair_writeReg8_high (p : Pair) (w : Byte) (s : State) :
    (s.writeReg8 p.high w).readPair p = joinBytes w (s.readReg8 p.low) := by
  rw [State.readPair, State.readReg8_writeReg8_same, State.readReg8_writeReg8_other _ _ p.high_ne_low.symm]

/-- Writing the low half of a pair keeps the high half, and the pair reads as the new composition (R23). -/
theorem State.readPair_writeReg8_low (p : Pair) (w : Byte) (s : State) :
    (s.writeReg8 p.low w).readPair p = joinBytes (s.readReg8 p.high) w := by
  rw [State.readPair, State.readReg8_writeReg8_same, State.readReg8_writeReg8_other _ _ p.high_ne_low]

/-! ### The flags (R30, R31, R33) -/

theorem State.flag_eq_testBit (x : Flag) (s : State) : s.flag x = s.f.toNat.testBit x.pos := rfl

/-- The one bit a host number is truncated to, read back as a number (R22, R31). -/
theorem toNat_decide_mod_two (v : Nat) : (decide (v % 2 = 1)).toNat = v % 2 := by
  rcases Nat.mod_two_eq_zero_or_one v with h | h <;> simp [h]

theorem State.flag_writeReg8 {x : Reg8} (hx : x ≠ .f) (v : Byte) (s : State) (y : Flag) : (s.writeReg8 x v).flag y = s.flag y :=
  congrArg (getFlag · y) (State.readReg8_writeReg8_other v s hx.symm)

/-- A pair that is not AF holds no flag. -/
theorem State.flag_writePair {p : Pair} (hp : p.low ≠ .f) (v : Word) (s : State) (y : Flag) : (s.writePair p v).flag y = s.flag y := by
  have hhigh : p.high ≠ .f := by cases p <;> decide
  rw [State.writePair, State.flag_writeReg8 hp, State.flag_writeReg8 hhigh]

/-- INC r clears N and keeps C (R33, R140). -/
theorem State.flag_inc8 {x : Reg8} (hx : x ≠ .f) (s : State) : (s.inc8 x).flag .n = false ∧ (s.inc8 x).flag .c = s.flag .c := by
  obtain ⟨-, -, -, -, -, -, hn, hc⟩ := State.flag_inc8Flags (s.readReg8 x) s
  exact ⟨(State.flag_writeReg8 hx _ _ _).trans hn, (State.flag_writeReg8 hx _ _ _).trans hc⟩

/-- DEC r sets N and keeps C (R33, R141). -/
theorem State.flag_dec8 {x : Reg8} (hx : x ≠ .f) (s : State) : (s.dec8 x).flag .n = true ∧ (s.dec8 x).flag .c = s.flag .c := by
  obtain ⟨-, -, -, -, -, -, hn, hc⟩ := State.flag_dec8Flags (s.readReg8 x) s
  exact ⟨(State.flag_writeReg8 hx _ _ _).trans hn, (State.flag_writeReg8 hx _ _ _).trans hc⟩

/-- The 16-bit add into a pair that is not AF clears N and keeps S, Z and PV (R33, R162). -/
theorem State.flag_add16 {dst : Pair} (hdst : dst.low ≠ .f) (src : Pair) (s : State) :
    (s.add16 dst src).flag .n = false ∧ ∀ x ∈ [Flag.s, .z, .pv], (s.add16 dst src).flag x = s.flag x := by
  obtain ⟨-, -, -, hn, -, hs, hz, hpv⟩ :=
    State.flag_add16Flags (s.readPair dst) (s.readPair src) (s.writePair dst (s.readPair dst + s.readPair src))
  rw [State.flag_writePair hdst] at hs hz hpv
  simpa [State.add16] using ⟨hn, hs, hz, hpv⟩

/-- The flag block of a rotate clears N and H and keeps S, Z and PV (R33, R190, R191). -/
theorem State.flag_rotateFlags_table (r : Byte) (c : Bool) (s : State) :
    (s.rotateFlags r c).flag .n = false ∧ (s.rotateFlags r c).flag .h = false ∧
    ∀ x ∈ [Flag.s, .z, .pv], (s.rotateFlags r c).flag x = s.flag x := by
  obtain ⟨-, hh, hn, -, -, hs, hz, hpv⟩ := State.flag_rotateFlags r c s
  simpa using ⟨hn, hh, hs, hz, hpv⟩

/-! ### What one instruction does to halted, to A' and F', and to the interrupt state -/

/-- An instruction leaves the engine halted exactly when it was, or when it is HALT (R38). -/
theorem exec_halted_iff {i : Instr} {s t : State} (h : exec i s = .next t) : t.halted = true ↔ s.halted = true ∨ i = .halt := by
  cases i <;> injection h with h <;> subst h
  case halt => exact ⟨fun _ => .inr rfl, fun _ => rfl⟩
  all_goals exact ⟨.inl, fun hor => hor.resolve_right Instr.noConfusion⟩

/-- No instruction but EX AF,AF' writes A' or F' (R26). -/
theorem exec_keeps_shadowAF {i : Instr} {s t : State} (h : exec i s = .next t) (hi : i ≠ .exAFAF) :
    t.shadowA = s.shadowA ∧ t.shadowF = s.shadowF := by
  cases i <;> injection h with h <;> subst h
  case exAFAF => exact absurd rfl hi
  all_goals exact ⟨rfl, rfl⟩

/-- The fetches of a step carry the interrupt state along unread, and give the same instruction (R34, R36, R37). -/
theorem State.fetched_withInterruptState (o : Operation) (i : Byte) (iff1 iff2 : Bool) (im : InterruptMode) (s : State) :
    (s.withInterruptState i iff1 iff2 im).fetch8.2.refresh.fetchOperands o =
      ((s.fetch8.2.refresh.fetchOperands o).1, (s.fetch8.2.refresh.fetchOperands o).2.withInterruptState i iff1 iff2 im) := by
  cases o <;> rfl

/-- No instruction reads or writes the interrupt state (R34, R36, R37). -/
theorem exec_withInterruptState (instr : Instr) (i : Byte) (iff1 iff2 : Bool) (im : InterruptMode) (s : State) :
    exec instr (s.withInterruptState i iff1 iff2 im) = mapNext (State.withInterruptState i iff1 iff2 im) (exec instr s) := by
  cases instr <;> rfl

/-! ### What a step that answers a next state has done -/

theorem Instr.opcode_eq_halt_iff (i : Instr) : i.operation.opcode = 0x76#8 ↔ i = .halt := by
  cases i <;> simp [Instr.operation, Operation.opcode]

/-- The state an instruction runs on is the state before the step with the fetches' changes: PC, R and the bus history (R110). -/
theorem State.fetched_eq (o : Operation) (s : State) :
    (s.fetch8.2.refresh.fetchOperands o).2 =
      { s with
        pc := (s.fetch8.2.refresh.fetchOperands o).2.pc, r := refreshNext s.r, bus := (s.fetch8.2.refresh.fetchOperands o).2.bus } := by
  rw [State.fetchOperands_eq]
  rfl

/-- A step that answers a next state is a halted step, or it runs the instruction whose opcode stands at PC on a state `p` that differs
from the one before in PC, R.count and the bus history alone, and adds its cost to T (R110, R122). -/
theorem step_next_cases {s t : State} (h : step s = .next t) :
    (s.halted = true ∧ t = s.haltedStep) ∨
    (s.halted = false ∧ ∃ i p u cost, i.operation.opcode = s.opcodeAtPC ∧ p = { s with pc := p.pc, r := refreshNext s.r, bus := p.bus } ∧
      exec i p = .next u ∧ t = u.addTStates cost) := by
  obtain hhalted | ⟨hrun, o, cost, u, hd, hu, ht⟩ := step_cases h
  · exact .inl hhalted
  · refine .inr ⟨hrun, _, _, u, cost, ?_, State.fetched_eq o s, hu, ht⟩
    rw [State.fetchOperands_operation]
    exact opcode_of_dispatchTable _ _ _ hd

/-- The refresh increment holds bit 7 of R (R35, R112). -/
@[simp] theorem refreshHold_refreshNext (r : Byte) : refreshHold (refreshNext r) = refreshHold r := by
  rw [refreshHold, refreshNext, BitVec.extractLsb'_append_eq_of_le (by decide)]
  exact BitVec.extractLsb'_eq_self

/-- What a step that answers a next state can change: the fields an instruction can (`exec_frame`), PC, R.count and T. -/
theorem step_frame {s t : State} (h : step s = .next t) :
    t = { s with
      a := t.a, f := t.f, b := t.b, c := t.c, h := t.h, l := t.l, shadowA := t.shadowA, shadowF := t.shadowF,
      pc := t.pc, r := refreshNext s.r, halted := t.halted, tStates := t.tStates, mem := t.mem, bus := t.bus, draws := t.draws } := by
  obtain ⟨-, rfl⟩ | ⟨-, i, p, u, cost, -, hp, hu, rfl⟩ := step_next_cases h
  · rfl
  · rw [exec_frame i hu, hp]
    rfl

/-! ### Host calls and halted -/

/-- A host call that is neither reset nor a step leaves halted alone (R38). -/
theorem hostCall_keeps_halted {call : HostCall} (s : State) (hreset : call ≠ .reset) (hstep : call ≠ .executeInstruction) :
    (hostCall call s).state.halted = s.halted := by
  cases call
  case reset => exact absurd rfl hreset
  case executeInstruction => exact absurd rfl hstep
  case writeReg8 x v => exact (sameButReg8_writeReg8 x _ s).halted
  case writePair p v => exact (sameButReg8_writePair p _ s).halted
  case writeIM v => simp only [hostCall, State.hostWriteIM]; split <;> rfl
  all_goals rfl

/-- A halted engine stays halted under every host call but reset: a step from it is a halted step (R38, R122). -/
theorem hostCall_stays_halted {call : HostCall} {s : State} (hs : s.halted = true) (hreset : call ≠ .reset) :
    (hostCall call s).state.halted = true := by
  by_cases hstep : call = .executeInstruction
  · subst hstep
    exact (congrArg (·.state.halted) (executeInstruction_halted hs)).trans hs
  · rw [hostCall_keeps_halted s hreset hstep, hs]

/-- A running engine stays running under every host call but a step: reset leaves it running too (R38, R250). -/
theorem hostCall_stays_running {call : HostCall} {s : State} (hs : s.halted = false) (hstep : call ≠ .executeInstruction) :
    (hostCall call s).state.halted = false := by
  by_cases hreset : call = .reset
  · subst hreset
    rfl
  · rw [hostCall_keeps_halted s hreset hstep, hs]

/-! ### The statements -/

/-- Settles O6: the table is read off, a pair is two register writes, and a register write has its frame. -/
theorem pairsComposeHighFirst : Obligations.PairsComposeHighFirst := by
  refine ⟨rfl, fun s p => ⟨s.readPair_toNat p, fun v => ⟨?_, ?_, ?_, sameButReg8_writePair p v s⟩, fun w => ⟨?_, ?_, ?_, ?_⟩⟩,
    fun s x w => ⟨s.readReg8_writeReg8_same x w, fun y hy => State.readReg8_writeReg8_other w s hy, sameButReg8_writeReg8 x w s⟩,
    fun s v => ⟨fun _ => rfl, fun _ => rfl⟩⟩
  · rw [State.readReg8_high_writePair, hiByte_toNat]
  · rw [State.readReg8_low_writePair, loByte_toNat]
  · exact fun x hhigh hlow => State.readReg8_writePair_other v s hhigh hlow
  · exact State.readReg8_writeReg8_other w s p.high_ne_low.symm
  · exact State.readReg8_writeReg8_other w s p.high_ne_low
  · rw [State.readPair_writeReg8_high, joinBytes_toNat]
  · rw [State.readPair_writeReg8_low, joinBytes_toNat]

/-- Settles O25: a step sets halted by running HALT alone, whose opcode is 0x76; of the host calls only reset and a step touch halted,
and a halted step stays halted. -/
theorem onlyHaltSetsOnlyResetClearsHalted : Obligations.OnlyHaltSetsOnlyResetClearsHalted := by
  refine ⟨fun s t h => ?_, fun s call hs ht => ?_, fun s call hs ht => ?_⟩
  · obtain ⟨hs, rfl⟩ | ⟨-, i, p, u, cost, hop, hp, hu, rfl⟩ := step_next_cases h
    · exact iff_of_true hs (.inl hs)
    · have hhalted : p.halted = s.halted := by rw [hp]
      rw [State.addTStates_halted, exec_halted_iff hu, hhalted, ← hop, Instr.opcode_eq_halt_iff]
  · by_contra hreset
    exact Bool.noConfusion ((hostCall_stays_halted hs hreset).symm.trans ht)
  · by_contra hstep
    exact Bool.noConfusion ((hostCall_stays_running hs hstep).symm.trans ht)

/-- Settles O34, from the frame of a step; R.hold is kept by the refresh increment. -/
theorem unreachedStateKept : Obligations.UnreachedStateKept := by
  intro s t h
  rw [step_frame h]
  exact ⟨rfl, rfl, rfl, rfl, rfl, rfl, rfl, rfl, rfl, rfl, rfl, rfl, rfl, rfl, rfl, rfl, rfl, refreshHold_refreshNext s.r,
    rfl, rfl, rfl, rfl⟩

/-- Settles O35: were the instruction run another than EX AF,AF', A' and F' would be kept. -/
theorem onlyExchangeReachesShadow : Obligations.OnlyExchangeReachesShadow := by
  intro s t h hchanged
  obtain ⟨-, rfl⟩ | ⟨hrun, i, p, u, cost, hop, hp, hu, rfl⟩ := step_next_cases h
  · exact absurd rfl (hchanged.resolve_right (absurd rfl))
  · refine ⟨hrun, ?_⟩
    by_cases hi : i = .exAFAF
    · rw [← hop, hi]; rfl
    · obtain ⟨hA, hF⟩ := exec_keeps_shadowAF hu hi
      rw [hp] at hA hF
      exact absurd hF (hchanged.resolve_left (absurd hA))

/-- Settles O36: fetches, the operation and the halted step each carry the interrupt state along, and a fault does not mention it. -/
theorem interruptStateHasNoEffect : Obligations.InterruptStateHasNoEffect := by
  intro s i iff1 iff2 im
  let s' := s.withInterruptState i iff1 iff2 im
  cases hh : s.halted with
  | true =>
    rw [step_next_iff.2 (executeInstruction_halted hh), step_next_iff.2 (executeInstruction_halted (s := s') hh)]
    rfl
  | false =>
    cases hd : dispatchTable (s.readByte s.pc) with
    | undefined =>
      rw [step, step, executeInstruction_undefined hh hd, executeInstruction_undefined (s := s') hh hd]
      rfl
    | defined o cost =>
      obtain ⟨u, hu⟩ := exec_completes (s.fetch8.2.refresh.fetchOperands o).1 (s.fetch8.2.refresh.fetchOperands o).2
      have hu' : exec (s'.fetch8.2.refresh.fetchOperands o).1 (s'.fetch8.2.refresh.fetchOperands o).2 =
          .next (u.withInterruptState i iff1 iff2 im) := by
        rw [State.fetched_withInterruptState, exec_withInterruptState, hu]
        rfl
      rw [step_next_iff.2 (executeInstruction_defined hh hd hu), step_next_iff.2 (executeInstruction_defined (s := s') hh hd hu')]
      rfl

/-- Settles O60, instruction by instruction: each row of R33's table from the flags of the operation it runs. -/
theorem flagTable : Obligations.FlagTable := by
  intro i s
  cases i <;> refine ⟨_, rfl, ?_⟩
  case incB => exact State.flag_inc8 (by decide) s
  case incC => exact State.flag_inc8 (by decide) s
  case decB => exact State.flag_dec8 (by decide) s
  case decC => exact State.flag_dec8 (by decide) s
  case addHLBC => exact State.flag_add16 (by decide) .bc s
  case rlca => exact State.flag_rotateFlags_table _ _ { s with a := rotateLeftByte s.a }
  case rrca => exact State.flag_rotateFlags_table _ _ { s with a := rotateRightByte s.a }
  case exAFAF =>
    rw [State.exchange_af]
    exact fun _ => ⟨rfl, rfl⟩
  all_goals exact fun _ => rfl

/-- Settles O2: every register is zero, a pair of zeros is zero, and no bit of a zero F is set. -/
theorem constructedStateIsZero : Obligations.ConstructedStateIsZero := by
  have hreg : ∀ x, State.reset.readReg8 x = 0x00#8 := by
    intro x
    cases x <;> rfl
  refine ⟨hreg, fun p => ?_, fun x => BitVec.getLsbD_zero, rfl, rfl, rfl, rfl, rfl, rfl, rfl⟩
  rw [State.readPair, hreg, hreg]
  rfl

/-- Settles O5: each field reads as the truncated number written to it. -/
theorem hostWritesTruncate : Obligations.HostWritesTruncate := by
  refine fun s v => ⟨fun x => ?_, fun p => ?_, BitVec.toNat_ofNat v 16, BitVec.toNat_ofNat v 16⟩
  · exact (congrArg BitVec.toNat (s.readReg8_writeReg8_same x _)).trans (BitVec.toNat_ofNat v 8)
  · exact (congrArg BitVec.toNat (s.readPair_writePair_same p _)).trans (BitVec.toNat_ofNat v 16)

/-- Settles O7: a flag of a state is the bit of F at the flag's place. -/
theorem flagPlaces : Obligations.FlagPlaces :=
  ⟨by decide, fun s => ⟨s.flag_eq_testBit .s, s.flag_eq_testBit .z, s.flag_eq_testBit .f5, s.flag_eq_testBit .h, s.flag_eq_testBit .f3,
    s.flag_eq_testBit .pv, s.flag_eq_testBit .n, s.flag_eq_testBit .c⟩⟩

/-- Settles O8: F is the one storage, so a flags-byte write is read back whole and a named write is a write of one bit of F. -/
theorem flagsByteAndNamedFlagsAgree : Obligations.FlagsByteAndNamedFlagsAgree := by
  refine fun s v => ⟨BitVec.toNat_ofNat v 8, ?_, fun x => ⟨_, rfl, ?_, fun y hy => ?_, rfl⟩⟩
  · show { s with f := BitVec.ofNat 8 s.f.toNat } = s
    rw [BitVec.ofNat_toNat, BitVec.setWidth_eq]
  · show ((s.setFlagBit x (decide (v % 2 = 1))).flag x).toNat = v % 2
    rw [State.flag_setFlagBit, if_pos rfl, toNat_decide_mod_two]
  · rw [State.flag_setFlagBit, if_neg hy]

end Sys2Proof.Machine
end

section
/-! PROOFS. The family 20_memory.md. First the rules these proofs share: what a byte or word write leaves, what canonical memories have in common, what the
fetches of a step record, and what one instruction does to memory and to the bus history; then the statements, each from those rules. -/

namespace Sys2Proof.Machine

/-! ### Byte and word writes (R62, R64) -/

theorem State.readByte_writeByte_same {s : State} (a : Word) (v : Byte) (h : s.Inv) : (s.writeByte a v).readByte a = v :=
  Memory.read_write_same v h

theorem State.readByte_writeByte_other {a b : Word} (v : Byte) (s : State) (h : b ≠ a) : (s.writeByte a v).readByte b = s.readByte b :=
  Memory.read_write_other s.mem v fun hb => h (BitVec.eq_of_toNat_eq hb)

/-- The two bytes of a word stand at different addresses, at the wrap too (R64). -/
theorem succ_address_ne (a : Word) : a + 1#16 ≠ a := by bv_omega

theorem State.readByte_writeWord_low {s : State} (a v : Word) (h : s.Inv) : (s.writeWord a v).readByte a = loByte v := by
  rw [State.writeWord, State.readByte_writeByte_other _ _ (succ_address_ne a).symm, State.readByte_writeByte_same _ _ h]

theorem State.readByte_writeWord_high {s : State} (a v : Word) (h : s.Inv) : (s.writeWord a v).readByte (a + 1#16) = hiByte v :=
  State.readByte_writeByte_same _ _ (State.writeByte_wf a _ h)

theorem State.readByte_writeWord_other {a b : Word} (v : Word) (s : State) (hlow : b ≠ a) (hhigh : b ≠ a + 1#16) :
    (s.writeWord a v).readByte b = s.readByte b := by
  rw [State.writeWord, State.readByte_writeByte_other _ _ hhigh, State.readByte_writeByte_other _ _ hlow]

/-! ### The canonical form of memory (R61, R62) -/

theorem Memory.wfFrom_cons {lo k : Nat} {v : Byte} {rest : Memory} :
    Memory.wfFrom lo ((k, v) :: rest) = true ↔ lo ≤ k ∧ k < 2 ^ 16 ∧ v ≠ Config.unlistedByte ∧ Memory.wfFrom (k + 1) rest = true := by
  simp [Memory.wfFrom, and_assoc]

theorem Memory.read_cons_same (k : Nat) (v : Byte) (rest : Memory) : Memory.read ((k, v) :: rest) k = v := if_pos rfl

theorem Memory.read_cons_other {k a : Nat} (v : Byte) (rest : Memory) (h : a ≠ k) : Memory.read ((k, v) :: rest) a = rest.read a :=
  if_neg h.symm

/-- Where canonical memories read alike, the first cell of one does not stand below all cells of the other: there the other reads as
unlisted, and no cell holds that. -/
theorem Memory.not_wfFrom_above_head {lo k : Nat} {v : Byte} {rest m : Memory} (hcell : Memory.wfFrom lo ((k, v) :: rest) = true)
    (hread : ∀ a, a < 2 ^ 16 → Memory.read ((k, v) :: rest) a = m.read a) : ¬ Memory.wfFrom (k + 1) m = true := by
  intro hm
  obtain ⟨-, hk, hv, -⟩ := Memory.wfFrom_cons.1 hcell
  refine hv ?_
  calc v = Memory.read ((k, v) :: rest) k := (Memory.read_cons_same k v rest).symm
    _ = m.read k := hread k hk
    _ = Config.unlistedByte := Memory.read_below hm (Nat.lt_succ_self k)

/-- By induction on the cells: the first cells agree in address and in byte, and what follows them reads alike. -/
theorem Memory.eq_of_read_eq {lo : Nat} {m m' : Memory} (hm : Memory.wfFrom lo m = true) (hm' : Memory.wfFrom lo m' = true)
    (hread : ∀ a, a < 2 ^ 16 → m.read a = m'.read a) : m = m' := by
  induction m generalizing lo m' with
  | nil =>
    cases m' with
    | nil => rfl
    | cons cell' rest' => exact absurd rfl (Memory.not_wfFrom_above_head hm' fun a ha => (hread a ha).symm)
  | cons cell rest ih =>
    cases m' with
    | nil => exact absurd rfl (Memory.not_wfFrom_above_head hm hread)
    | cons cell' rest' =>
      obtain ⟨k, v⟩ := cell
      obtain ⟨k', v'⟩ := cell'
      obtain ⟨-, hk, hv, hrest⟩ := Memory.wfFrom_cons.1 hm
      obtain ⟨-, hk', hv', hrest'⟩ := Memory.wfFrom_cons.1 hm'
      have hge : ¬ k < k' := fun hlt =>
        Memory.not_wfFrom_above_head hm hread (Memory.wfFrom_cons.2 ⟨hlt, hk', hv', hrest'⟩)
      have hle : ¬ k' < k := fun hlt =>
        Memory.not_wfFrom_above_head hm' (fun a ha => (hread a ha).symm) (Memory.wfFrom_cons.2 ⟨hlt, hk, hv, hrest⟩)
      obtain rfl : k = k' := by omega
      have hbyte : v = v' := by simpa only [Memory.read_cons_same] using hread k hk
      have hreadRest : ∀ a, a < 2 ^ 16 → Memory.read rest a = Memory.read rest' a := by
        intro a ha
        by_cases hak : a ≤ k
        · rw [Memory.read_below hrest (by omega), Memory.read_below hrest' (by omega)]
        · have hne : a ≠ k := by omega
          simpa only [Memory.read_cons_other _ _ hne] using hread a ha
      rw [hbyte, ih hrest hrest' hreadRest]

/-! ### What the fetches of a step record (R67, R70) -/

/-- The operand fetches complete the instruction that decoding finds in the two bytes at PC (R87). -/
theorem State.decodeOperands_bytesFrom (o : Operation) (s : State) :
    ∃ rest, decodeOperands o (s.bytesFrom 2 s.pc) = .ok ((s.fetchOperands o).1, rest) := by
  cases o
  case ldBCnn => exact ⟨[], rfl⟩
  case ldBn => exact ⟨[s.readByte (s.pc + 1#16)], rfl⟩
  case ldCn => exact ⟨[s.readByte (s.pc + 1#16)], rfl⟩
  all_goals exact ⟨s.bytesFrom 2 s.pc, rfl⟩

/-- The bytes at PC decode to the instruction the step's fetches complete (R85, R110). -/
theorem State.decode_bytesFrom {s : State} {o : Operation} {cost : Nat} (hd : dispatchTable s.opcodeAtPC = .defined o cost) :
    ∃ rest, decode (s.bytesFrom 3 s.pc) = .ok ((s.fetch8.2.refresh.fetchOperands o).1, rest) := by
  have hoperands : decode (s.bytesFrom 3 s.pc) = decodeOperands o (s.bytesFrom 2 (s.pc + 1#16)) := by
    rw [State.opcodeAtPC] at hd
    simp only [State.bytesFrom, decode, hd]
  rw [hoperands]
  exact State.decodeOperands_bytesFrom o s.fetch8.2.refresh

/-- The history after the fetches: the opcode fetch, then the operand fetches of the instruction they complete. -/
theorem State.fetched_bus (o : Operation) (s : State) :
    (s.fetch8.2.refresh.fetchOperands o).2.bus =
      s.bus ++ (.fetch s.pc s.opcodeAtPC :: operandEvents s.pc (s.fetch8.2.refresh.fetchOperands o).1) := by
  cases o
  case ldBCnn =>
    rw [State.fetchOperands_imm16 rfl]
    simp [operandEvents, BitVec.add_assoc, State.readByte, State.opcodeAtPC]
  case ldBn =>
    rw [State.fetchOperands_imm8 rfl]
    simp [operandEvents, State.readByte, State.opcodeAtPC]
  case ldCn =>
    rw [State.fetchOperands_imm8 rfl]
    simp [operandEvents, State.readByte, State.opcodeAtPC]
  all_goals rfl

theorem State.fetched_pc (o : Operation) (s : State) : (s.fetch8.2.refresh.fetchOperands o).2.pc = s.pc + BitVec.ofNat 16 o.length := by
  rw [State.fetchOperands_eq, State.refresh_pc, State.fetch8_pc, BitVec.add_assoc]
  cases o <;> rfl

/-- The state an instruction runs on is the one `State.afterFetch` writes out (R110 lines (1) to (4)). -/
theorem State.fetched_eq_afterFetch {o : Operation} {s : State} (hop : o.opcode = s.opcodeAtPC) :
    (s.fetch8.2.refresh.fetchOperands o).2 = s.afterFetch (s.fetch8.2.refresh.fetchOperands o).1 := by
  rw [State.fetched_eq, State.fetched_pc, State.fetched_bus, State.afterFetch, State.fetchOperands_operation, hop]

/-- A step that answers a next state is a halted step, or it runs the instruction the bytes at PC decode to on the state past its fetches
and adds its cost to T (R110, R122). -/
theorem step_decoded_cases {s t : State} (h : step s = .next t) :
    (s.halted = true ∧ t = s.haltedStep) ∨
    (s.halted = false ∧ ∃ i rest u cost, decode (s.bytesFrom 3 s.pc) = .ok (i, rest) ∧ i.operation.opcode = s.opcodeAtPC ∧
      exec i (s.afterFetch i) = .next u ∧ t = u.addTStates cost) := by
  obtain hhalted | ⟨hrun, o, cost, u, hd, hu, ht⟩ := step_cases h
  · exact .inl hhalted
  · have hop : o.opcode = s.opcodeAtPC := opcode_of_dispatchTable _ _ _ hd
    obtain ⟨rest, hdecode⟩ := State.decode_bytesFrom hd
    rw [State.fetched_eq_afterFetch hop] at hu
    exact .inr ⟨hrun, _, rest, u, cost, hdecode, by rw [State.fetchOperands_operation, hop], hu, ht⟩

/-! ### What one instruction, and one step, does to memory and to the bus history -/

/-- LD (BC),A is one recorded write of A at BC (R201). -/
theorem exec_ldIndBCA (s : State) : exec .ldIndBCA s = .next (s.dataWrite (s.indirectAddress .bc) s.a) := rfl

/-- No instruction but LD (BC),A writes memory (R67). -/
theorem exec_keeps_mem {i : Instr} {s t : State} (h : exec i s = .next t) (hi : i ≠ .ldIndBCA) : t.mem = s.mem := by
  cases i <;> injection h with h <;> subst h
  case ldIndBCA => exact absurd rfl hi
  all_goals rfl

/-- An instruction adds its data access to the history, where it has one, and nothing else (R67, R70). -/
theorem exec_bus {i : Instr} {s t : State} (h : exec i s = .next t) : t.bus = s.bus ++ dataEvents s i := by
  cases i <;> injection h with h <;> subst h
  case ldIndBCA => rfl
  case ldAIndBC => rfl
  all_goals exact (List.append_nil s.bus).symm

/-- The fetches change nothing a data access depends on. -/
theorem dataEvents_afterFetch (i j : Instr) (s : State) : dataEvents (s.afterFetch j) i = dataEvents s i := by
  cases i <;> rfl

theorem Instr.opcode_eq_ldIndBCA_iff (i : Instr) : i.operation.opcode = 0x02#8 ↔ i = .ldIndBCA := by
  cases i <;> simp [Instr.operation, Operation.opcode]

/-- A step at LD (BC),A: its fetch, the recorded write of A at BC, its cost (R110, R201). -/
theorem step_store {s t : State} (hrun : s.halted = false) (hop : s.opcodeAtPC = 0x02#8) (h : step s = .next t) :
    ∃ cost, t = ((s.afterFetch .ldIndBCA).dataWrite (s.indirectAddress .bc) s.a).addTStates cost := by
  obtain ⟨hhalted, -⟩ | ⟨-, i, rest, u, cost, -, hi, hu, rfl⟩ := step_decoded_cases h
  · exact Bool.noConfusion (hrun.symm.trans hhalted)
  · obtain rfl := (Instr.opcode_eq_ldIndBCA_iff i).1 (hi.trans hop)
    rw [exec_ldIndBCA] at hu
    injection hu with hu
    exact ⟨cost, by rw [← hu]; rfl⟩

/-- A step keeps memory, or it is LD (BC),A and memory is as after the write of A at BC (R67, R201). -/
theorem step_mem_cases {s t : State} (h : step s = .next t) :
    t.mem = s.mem ∨ (s.halted = false ∧ s.opcodeAtPC = 0x02#8 ∧ t.mem = (s.writeByte (s.indirectAddress .bc) s.a).mem) := by
  by_cases hstore : s.halted = false ∧ s.opcodeAtPC = 0x02#8
  · obtain ⟨hrun, hop⟩ := hstore
    obtain ⟨cost, rfl⟩ := step_store hrun hop h
    exact .inr ⟨hrun, hop, rfl⟩
  · refine .inl ?_
    obtain ⟨-, rfl⟩ | ⟨hrun, i, rest, u, cost, -, hop, hu, rfl⟩ := step_decoded_cases h
    · rfl
    · have hi : i ≠ .ldIndBCA := fun hi => hstore ⟨hrun, hop.symm.trans ((Instr.opcode_eq_ldIndBCA_iff i).2 hi)⟩
      exact (exec_keeps_mem hu hi : u.mem = (s.afterFetch i).mem)

/-! ### Histories that memory explains (R71) -/

theorem replay_append (xs ys : List BusEvent) (m : Memory) : replay m (xs ++ ys) = (replay m xs).bind (replay · ys) := by
  induction xs generalizing m with
  | nil => rfl
  | cons ev xs ih =>
    cases ev with
    | fetch a v => simp only [List.cons_append, replay]; split <;> simp [ih]
    | read a v => simp only [List.cons_append, replay]; split <;> simp [ih]
    | write a v => simp only [List.cons_append, replay, ih]

/-- The history of a state, run over a launch memory, explains every fetch and read and ends in the state's memory: the premise and the
conclusion of HistoryExplainsEveryRead. -/
def State.ExplainedFrom (launch : Memory) (s : State) : Prop := replay launch s.bus = some s.mem

section
variable {launch : Memory} {s : State} (h : s.ExplainedFrom launch)
include h

theorem State.ExplainedFrom.fetch8 : s.fetch8.2.ExplainedFrom launch := by
  rw [State.ExplainedFrom, State.fetch8_bus, replay_append, h]
  exact if_pos rfl

theorem State.ExplainedFrom.dataRead (a : Word) : (s.dataRead a).2.ExplainedFrom launch := by
  rw [State.ExplainedFrom, State.dataRead, State.record_bus, replay_append, h]
  exact if_pos rfl

theorem State.ExplainedFrom.dataWrite (a : Word) (v : Byte) : (s.dataWrite a v).ExplainedFrom launch := by
  rw [State.ExplainedFrom, State.dataWrite, State.record_bus, State.writeByte_bus, replay_append, h]
  rfl

theorem State.ExplainedFrom.fetchOperands (o : Operation) : (s.fetchOperands o).2.ExplainedFrom launch := by
  cases o
  case ldBCnn => exact h.fetch8.fetch8
  case ldBn => exact h.fetch8
  case ldCn => exact h.fetch8
  all_goals exact h

/-- The two instructions with a data access record it as memory has it; the others touch neither memory nor history. -/
theorem State.ExplainedFrom.of_exec {i : Instr} {t : State} (ht : exec i s = .next t) : t.ExplainedFrom launch := by
  cases i <;> injection ht with ht <;> subst ht
  case ldIndBCA => exact h.dataWrite (s.indirectAddress .bc) s.a
  case ldAIndBC => exact h.dataRead (s.indirectAddress .bc)
  all_goals exact h

end

/-! ### The statements -/

/-- Settles O13: the one write a step can make keeps the canonical form. -/
theorem stepKeepsMemoryCanonical : Obligations.StepKeepsMemoryCanonical := by
  intro s t hs h
  obtain hmem | ⟨-, -, hmem⟩ := step_mem_cases h <;> rw [State.Inv, hmem]
  · exact hs
  · exact State.writeByte_wf _ _ hs

/-- Settles O31: the opcode fetch, the operand fetches and the instruction each keep the history explained; a halted step touches
neither history nor memory. -/
theorem historyExplainsEveryRead : Obligations.HistoryExplainsEveryRead := by
  intro launch s t hs h
  obtain ⟨-, rfl⟩ | ⟨-, o, cost, u, -, hu, rfl⟩ := step_cases h
  · exact hs
  · have hopcode : s.fetch8.2.refresh.ExplainedFrom launch := State.ExplainedFrom.fetch8 hs
    show u.ExplainedFrom launch
    exact (hopcode.fetchOperands o).of_exec hu

/-- Settles O10: the byte written is read back, every other address reads as before, and memory is the one field written. -/
theorem readAfterWrite : Obligations.ReadAfterWrite :=
  fun s a v hs => ⟨State.readByte_writeByte_same a v hs, fun _ hb => State.readByte_writeByte_other v s hb, rfl⟩

/-- Settles O11: a word access is two byte accesses at different addresses, low byte first. -/
theorem wordAccessLittleEndian : Obligations.WordAccessLittleEndian := by
  refine fun s a v hs => ⟨joinBytes_toNat _ _, ?_, ?_, ?_, fun b hlow hhigh => State.readByte_writeWord_other v s hlow hhigh⟩
  · rw [State.readByte_writeWord_low a v hs, loByte_toNat]
  · rw [State.readByte_writeWord_high a v hs, hiByte_toNat]
  · rw [State.readWord, State.readByte_writeWord_low a v hs, State.readByte_writeWord_high a v hs, joinBytes_hi_lo]

/-- Settles O12, from the same fact about the canonical form from any address on. -/
theorem canonicalMemoriesReadingAlikeAreEqual : Obligations.CanonicalMemoriesReadingAlikeAreEqual :=
  fun _ _ hm hm' hread => Memory.eq_of_read_eq hm hm' hread

/-- Settles O30: the fetches are in the state past them, and the instruction adds its data access. -/
theorem stepRecordsAccessesInOrder : Obligations.StepRecordsAccessesInOrder := by
  intro s t h
  obtain ⟨hhalted, rfl⟩ | ⟨hrun, i, rest, u, cost, hdecode, -, hu, rfl⟩ := step_decoded_cases h
  · exact ⟨fun _ => rfl, fun _ _ hrun => Bool.noConfusion (hrun.symm.trans hhalted)⟩
  · refine ⟨fun hhalted => Bool.noConfusion (hrun.symm.trans hhalted), fun i' rest' _ hdecode' => ?_⟩
    obtain ⟨rfl, -⟩ : i = i' ∧ rest = rest' := by simpa [hdecode] using hdecode'
    rw [State.addTStates_bus, exec_bus hu, dataEvents_afterFetch]
    rfl

/-- Settles O32: where memory was written, a byte that reads otherwise is the one written. -/
theorem onlyStoreChangesMemory : Obligations.OnlyStoreChangesMemory := by
  intro s t h a hchanged
  obtain hmem | ⟨hrun, hop, hmem⟩ := step_mem_cases h <;> rw [State.readByte, hmem] at hchanged
  · exact absurd rfl hchanged
  · exact ⟨hrun, hop, by_contra fun ha => hchanged (State.readByte_writeByte_other s.a s ha)⟩

/-- Settles O33: the step's write is read back, and the next fetch reads at the address after PC. -/
theorem storeSeenByNextFetch : Obligations.StoreSeenByNextFetch := by
  intro s t hs hrun hop h
  obtain ⟨cost, rfl⟩ := step_store hrun hop h
  have hstored : (s.writeByte (s.indirectAddress .bc) s.a).readByte (s.indirectAddress .bc) = s.a := State.readByte_writeByte_same _ _ hs
  exact ⟨hstored, fun hnext => by rw [hnext] at hstored ⊢; exact hstored⟩

/-- Settles O14: memory lists no cell at reset, and the history is empty. -/
theorem resetMeetsInvariants : Obligations.ResetMeetsInvariants := ⟨State.reset_mem_wf, rfl⟩

end Sys2Proof.Machine
end

section
/-! PROOFS. The family 30_encoding.md. First the rules these proofs share: which bytes have no entry, what decoding took from the bytes it accepted, and what an
assembler line stands for; then the statements, each from those rules. -/

namespace Sys2Proof

/-! ### The undefined entries (R90, R93) -/

theorem not_undefinedByte_opcode (o : Operation) : ¬ Machine.UndefinedByte o.opcode := by
  unfold Machine.UndefinedByte
  cases o <;> decide

/-- The table's last arm is reached by a byte that is none of the 17 opcodes. -/
theorem undefinedByte_of_dispatchTable {op : Byte} (h : dispatchTable op = .undefined) : Machine.UndefinedByte op := by
  unfold dispatchTable at h
  split at h
  case h_18 =>
    unfold Machine.UndefinedByte
    simp only [imp_false] at *
    bv_omega
  all_goals injection h

/-- A byte's entry is `Undefined` exactly on the 239 bytes R93 names: a defined entry stands at its operation's opcode, which is none of them. -/
theorem dispatchTable_eq_undefined_iff (op : Byte) : dispatchTable op = .undefined ↔ Machine.UndefinedByte op := by
  refine ⟨undefinedByte_of_dispatchTable, fun h => ?_⟩
  cases hd : dispatchTable op with
  | undefined => rfl
  | defined o cost => exact absurd (opcode_of_dispatchTable op o cost hd ▸ h) (not_undefinedByte_opcode o)

theorem decode_of_undefined {op : Byte} (rest : List Byte) (hd : dispatchTable op = .undefined) :
    decode (op :: rest) = .error (.undefinedOpcode op) := by
  simp only [decode, hd]

/-! ### Decoding and encoding (R85, R86, R87, R92) -/

/-- Decoding an instruction's encoding gives the instruction and leaves the bytes after it. -/
theorem decode_encode_append (i : Instr) (rest : List Byte) : decode (encode i ++ rest) = .ok (i, rest) := by
  cases i
  case ldBCnn nn => exact Laws.EncodingDecodes.ldBCnn nn rest
  all_goals rfl

/-- Decoding that answers an instruction found an opcode with a defined entry, and the entry's operand bytes after it. -/
theorem decode_ok_cases {bytes : List Byte} {i : Instr} {rest : List Byte} (h : decode bytes = .ok (i, rest)) :
    ∃ op tail o cost, bytes = op :: tail ∧ dispatchTable op = .defined o cost ∧ decodeOperands o tail = .ok (i, rest) := by
  cases bytes with
  | nil => injection h
  | cons op tail =>
    cases hd : dispatchTable op with
    | undefined =>
      rw [decode_of_undefined tail hd] at h
      injection h
    | defined o cost =>
      simp only [decode, hd] at h
      exact ⟨op, tail, o, cost, rfl, hd, h⟩

/-- The operand bytes that were read are the operand bytes of the instruction they gave: a word's low byte stands first (R86, R87). -/
theorem decodeOperands_ok {o : Operation} {bytes : List Byte} {i : Instr} {rest : List Byte} (h : decodeOperands o bytes = .ok (i, rest)) :
    i.operation = o ∧ bytes = i.operandBytes ++ rest := by
  cases o
  case ldBCnn =>
    obtain - | ⟨lo, - | ⟨hi, tail⟩⟩ := bytes <;> cases h
    simp [Instr.operation, Instr.operandBytes]
  case ldBn | ldCn =>
    obtain - | ⟨n, tail⟩ := bytes <;> cases h
    exact ⟨rfl, rfl⟩
  all_goals
    cases h
    exact ⟨rfl, rfl⟩

/-! ### Assembler lines (R97) -/

theorem Instr.wellFormed_eq_true (i : Instr) : i.wellFormed = true := by
  cases i
  case ldBCnn nn => exact (Laws.WellFormedLength.ldBCnn nn).left
  case ldBn n => exact (Laws.WellFormedLength.ldBn n).left
  case ldCn n => exact (Laws.WellFormedLength.ldCn n).left
  all_goals rfl

/-- The line that writes an instruction stands for that instruction: its operand's number, truncated to the operand's width, is the operand. -/
theorem Instr.toLine_instr (i : Instr) : i.toLine.instr = some i := by
  have hwf : i.toLine.wellFormed = true := i.wellFormed_eq_true
  rw [AsmLine.instr, if_pos hwf]
  cases i
  case ldBCnn | ldBn | ldCn => simp [Instr.toLine, Instr.operation, Operation.shape]
  all_goals rfl

theorem AsmLine.instr_of_not_wellFormed {line : AsmLine} (h : line.wellFormed = false) : line.instr = none := by
  simp [AsmLine.instr, h]

/-! ### The statements -/

/-- Settles O19: an accepted opcode is the opcode of the operation its entry names, and the operand bytes after it are the instruction's. -/
theorem decodesExactlyItsEncodings : Obligations.DecodesExactlyItsEncodings := by
  refine fun bytes i rest => ⟨fun h => ?_, fun h => h ▸ decode_encode_append i rest⟩
  obtain ⟨op, tail, o, cost, rfl, hd, hoperands⟩ := decode_ok_cases h
  obtain ⟨rfl, rfl⟩ := decodeOperands_ok hoperands
  rw [encode, opcode_of_dispatchTable op i.operation cost hd, List.cons_append]

/-- Settles O20: a line assembles to the encoding of the instruction it stands for, and an ill-formed line stands for none. -/
theorem assemblerWritesEncoding : Obligations.AssemblerWritesEncoding := by
  refine ⟨fun i => ⟨i.wellFormed_eq_true, ?_⟩, fun line h => ?_, rfl⟩
  · rw [AsmLine.assemble, i.toLine_instr, Option.map_some]
  · rw [AsmLine.assemble, AsmLine.instr_of_not_wellFormed h, Option.map_none]

/-- Settles O17: the 17 rows are read off the table; every other byte has no entry, and decoding rejects it before it looks at an operand. -/
theorem dispatchTableEntries : Obligations.DispatchTableEntries :=
  ⟨by decide, dispatchTable_eq_undefined_iff, fun op rest h => decode_of_undefined rest ((dispatchTable_eq_undefined_iff op).2 h)⟩

/-- Settles O18: the decoder run on each of the eight words. -/
theorem writtenOutWordsDecode : Obligations.WrittenOutWordsDecode := ⟨rfl, rfl, rfl, rfl, rfl, rfl, rfl, rfl⟩

end Sys2Proof
end

section
/-! PROOFS. The family 40_sequencer.md. First the rules these proofs share: what a running step runs, when a step completes, what bytes stored
at PC decode to, and the recursion of a run on its first step; then the statements, each from those rules. -/

namespace Sys2Proof.Machine

/-! ### The refresh counter (R112) -/

theorem refreshNext_toNat (r : Byte) : (refreshNext r).toNat = r.toNat / 128 * 128 + (r.toNat % 128 + 1) % 128 := by
  have hr : r.toNat < 256 := r.isLt
  have hcount : (refreshCount r + 1#7).toNat = (r.toNat % 128 + 1) % 128 := by
    simp [refreshCount, BitVec.toNat_add, BitVec.extractLsb'_toNat]
  have hhold : (refreshHold r).toNat = r.toNat / 128 := by
    rw [refreshHold, BitVec.extractLsb'_toNat, Nat.shiftRight_eq_div_pow]
    omega
  rw [refreshNext, BitVec.toNat_append, Nat.shiftLeft_eq, Nat.mul_comm,
    ← Nat.two_pow_add_eq_or_of_lt (refreshCount r + 1#7).isLt, hcount, hhold]
  omega

theorem refreshedOnce_refreshNext (r : Byte) : RefreshedOnce r (refreshNext r) := by
  rw [RefreshedOnce, refreshNext_toNat]
  omega

/-! ### The instruction a running step runs (R110) -/

/-- A running step on a defined opcode is the operation its fetches complete, run on the state past them, and then the entry's cost (R110, R115). -/
theorem step_defined {s : State} {o : Operation} {cost : Nat} (hrun : s.halted = false) (hd : dispatchTable s.opcodeAtPC = .defined o cost) :
    step s = mapNext (State.addTStates cost)
      (exec (s.fetch8.2.refresh.fetchOperands o).1 (s.afterFetch (s.fetch8.2.refresh.fetchOperands o).1)) := by
  obtain ⟨u, hu⟩ := exec_completes (s.fetch8.2.refresh.fetchOperands o).1 (s.fetch8.2.refresh.fetchOperands o).2
  rw [step_next_iff.2 (executeInstruction_defined hrun hd hu), ← State.fetched_eq_afterFetch (opcode_of_dispatchTable _ _ _ hd), hu]
  rfl

/-- The bytes at PC decode to an instruction only where the opcode has an entry, and then to the one the step's fetches complete. -/
theorem State.decoded_eq_fetched {s : State} {i : Instr} {rest : List Byte} (h : decode (s.bytesFrom 3 s.pc) = .ok (i, rest)) :
    ∃ o cost, dispatchTable s.opcodeAtPC = .defined o cost ∧ i = (s.fetch8.2.refresh.fetchOperands o).1 := by
  obtain ⟨op, tail, o, cost, hbytes, hd, -⟩ := decode_ok_cases h
  obtain ⟨rfl, -⟩ : s.opcodeAtPC = op ∧ _ := List.cons.inj hbytes
  obtain ⟨rest', hfetched⟩ := State.decode_bytesFrom hd
  obtain ⟨hi, -⟩ : i = _ ∧ rest = rest' := by simpa [hfetched, eq_comm] using h
  exact ⟨o, cost, hd, hi⟩

/-- No instruction touches PC, R or T: those are the engine's (R110, R115). -/
theorem exec_keeps_sequencer {i : Instr} {s t : State} (h : exec i s = .next t) : t.pc = s.pc ∧ t.r = s.r ∧ t.tStates = s.tStates := by
  rw [exec_frame i h]
  exact ⟨rfl, rfl, rfl⟩

/-! ### When a step completes (R117, R222) -/

theorem not_undefinedByte_iff (op : Byte) : ¬ UndefinedByte op ↔ op.toNat ≤ 0x0F ∨ op = 0x76#8 := by
  unfold UndefinedByte
  bv_omega

/-- A halted step is Ok, and so is a running step on a byte that has an entry. -/
theorem executeInstruction_ok {s : State} (h : s.halted = true ∨ ¬ UndefinedByte s.opcodeAtPC) : ∃ t, executeInstruction s = ⟨.ok, t⟩ := by
  cases hrun : s.halted with
  | true => exact ⟨_, executeInstruction_halted hrun⟩
  | false =>
    have hop : ¬ UndefinedByte s.opcodeAtPC := h.resolve_left (by simp [hrun])
    cases hd : dispatchTable s.opcodeAtPC with
    | undefined => exact absurd ((dispatchTable_eq_undefined_iff _).1 hd) hop
    | defined o cost =>
      obtain ⟨u, hu⟩ := exec_completes (s.fetch8.2.refresh.fetchOperands o).1 (s.fetch8.2.refresh.fetchOperands o).2
      exact ⟨_, executeInstruction_defined hrun hd hu⟩

/-- A running step on one of the 239 bytes is a DecodeFault, which leaves memory alone (R221). -/
theorem executeInstruction_fault {s : State} (hrun : s.halted = false) (hop : UndefinedByte s.opcodeAtPC) :
    ∃ f t, executeInstruction s = ⟨.fault f, t⟩ ∧ t.mem = s.mem :=
  ⟨_, _, executeInstruction_undefined hrun ((dispatchTable_eq_undefined_iff _).2 hop), rfl⟩

/-- A step is Ok or faults: it is never refused (R117). -/
theorem executeInstruction_ok_or_fault (s : State) :
    (∃ t, executeInstruction s = ⟨.ok, t⟩) ∨ ∃ f t, executeInstruction s = ⟨.fault f, t⟩ ∧ t.mem = s.mem := by
  by_cases h : s.halted = true ∨ ¬ UndefinedByte s.opcodeAtPC
  · exact .inl (executeInstruction_ok h)
  · obtain ⟨hrun, hop⟩ := not_or.1 h
    exact .inr (executeInstruction_fault (Bool.eq_false_iff.2 hrun) (not_not.1 hop))

theorem executeInstruction_ok_iff (s : State) :
    (∃ t, executeInstruction s = ⟨.ok, t⟩) ↔ s.halted = true ∨ ¬ UndefinedByte s.opcodeAtPC := by
  refine ⟨fun ⟨t, hok⟩ => by_contra fun h => ?_, executeInstruction_ok⟩
  obtain ⟨hrun, hop⟩ := not_or.1 h
  obtain ⟨f, u, hfault, -⟩ := executeInstruction_fault (Bool.eq_false_iff.2 hrun) (not_not.1 hop)
  cases hok.symm.trans hfault

theorem step_fault {s t : State} {f : Fault} (h : executeInstruction s = ⟨.fault f, t⟩) : step s = .fault f := by
  rw [step, h]
  rfl

theorem step_ne_refused (s : State) (r : Refusal) : step s ≠ .refused r := by
  obtain ⟨t, h⟩ | ⟨f, t, h, -⟩ := executeInstruction_ok_or_fault s
  · rw [step_next_iff.2 h]
    nofun
  · rw [step_fault h]
    nofun

/-! ### An instruction's encoding, and the encoding stored at PC (R86, R87) -/

@[simp] theorem State.storeBytes_pc (s : State) (a : Word) (bytes : List Byte) : (s.storeBytes a bytes).pc = s.pc := by
  rw [State.storeBytes_eq]

@[simp] theorem State.storeBytes_halted (s : State) (a : Word) (bytes : List Byte) : (s.storeBytes a bytes).halted = s.halted := by
  rw [State.storeBytes_eq]

/-- Stored bytes leave alone an address that is none of theirs. -/
theorem State.readByte_storeBytes_other {a b : Word} {bytes : List Byte} (s : State)
    (h : ∀ k, k < bytes.length → b ≠ a + BitVec.ofNat 16 k) : (s.storeBytes a bytes).readByte b = s.readByte b := by
  induction bytes generalizing s a with
  | nil => rfl
  | cons v vs ih =>
    have hhead : b ≠ a := by simpa using h 0 (Nat.succ_pos _)
    have htail : ∀ k, k < vs.length → b ≠ a + 1#16 + BitVec.ofNat 16 k := by
      intro k hk
      rw [BitVec.add_assoc, BitVec.add_comm 1#16, ← BitVec.ofNat_add]
      exact h (k + 1) (Nat.succ_lt_succ hk)
    rw [State.storeBytes, ih _ htail, State.readByte_writeByte_other v s hhead]

/-- As many bytes as memory has room for, stored at an address, are the bytes from there on, round the top of memory too: no later
byte is stored over an earlier one. -/
theorem State.bytesFrom_storeBytes {bytes : List Byte} {n : Nat} (hroom : bytes.length ≤ 2 ^ 16) (hn : bytes.length ≤ n) {s : State}
    (a : Word) (hs : s.Inv) : ∃ rest, (s.storeBytes a bytes).bytesFrom n a = bytes ++ rest := by
  induction bytes generalizing n s a with
  | nil => exact ⟨_, rfl⟩
  | cons v vs ih =>
    rw [List.length_cons] at hroom hn
    obtain ⟨m, rfl⟩ : ∃ m, n = m + 1 := ⟨n - 1, by omega⟩
    have hhead : (s.storeBytes a (v :: vs)).readByte a = v := by
      have hother : ∀ k, k < vs.length → a ≠ a + 1#16 + BitVec.ofNat 16 k := by
        intro k hk
        have : k < 2 ^ 16 - 1 := by omega
        bv_omega
      rw [State.storeBytes, State.readByte_storeBytes_other _ hother, State.readByte_writeByte_same a v hs]
    obtain ⟨rest, htail⟩ := ih (by omega) (by omega : vs.length ≤ m) (a + 1#16) (State.writeByte_wf a v hs : (s.writeByte a v).Inv)
    exact ⟨rest, congrArg₂ List.cons hhead htail⟩

theorem encode_length_le (i : Instr) : (encode i).length ≤ 3 := by
  rw [encode_length, Operation.length]
  cases i.operation.format <;> decide

/-- An instruction's encoding stored at PC is what the bytes at PC decode to. -/
theorem State.decode_storeBytes_encode {s : State} (i : Instr) (hs : s.Inv) :
    ∃ rest, decode ((s.storeBytes s.pc (encode i)).bytesFrom 3 s.pc) = .ok (i, rest) := by
  have hlen : (encode i).length ≤ 3 := encode_length_le i
  obtain ⟨rest, hbytes⟩ := State.bytesFrom_storeBytes (by omega) hlen s.pc hs
  exact ⟨rest, by rw [hbytes, decode_encode_append]⟩

/-- An instruction is its own encoding, and that decodes to it with nothing left over. -/
theorem encodedAs_encode {i : Instr} {cost : Nat} (h : dispatchTable i.operation.opcode = .defined i.operation cost) :
    EncodedAs i (encode i) cost :=
  ⟨rfl, by simpa using decode_encode_append i [], h⟩

/-! ### Host writes of IM (R131) -/

theorem State.hostWriteIM_refused {v : Nat} (h : v % 4 = 3) (s : State) :
    s.hostWriteIM v = ⟨.refused .interruptModeThree, { s with refusals := s.refusals ++ [.interruptModeThree] }⟩ := by
  simp only [State.hostWriteIM, h]

theorem State.hostWriteIM_stored {v : Nat} (h : v % 4 ≠ 3) (s : State) :
    ∃ m : InterruptMode, m.toNat = v % 4 ∧ s.hostWriteIM v = ⟨.ok, { s with im := m }⟩ := by
  obtain hv | hv | hv : v % 4 = 0 ∨ v % 4 = 1 ∨ v % 4 = 2 := by omega
  · exact ⟨.im0, hv.symm, by simp only [State.hostWriteIM, hv]⟩
  · exact ⟨.im1, hv.symm, by simp only [State.hostWriteIM, hv]⟩
  · exact ⟨.im2, hv.symm, by simp only [State.hostWriteIM, hv]⟩

/-- The Ok host write of IM, as the host sees it: IM reads as the number's low two bits and nothing else changes. -/
theorem hostCall_writeIM_stored {v : Nat} (h : v % 4 ≠ 3) (s : State) :
    ∃ t, hostCall (.writeIM v) s = ⟨.ok, t⟩ ∧ hostQuery .readIM t = v % 4 ∧ t = { s with im := t.im } := by
  obtain ⟨m, hm, hstored⟩ := State.hostWriteIM_stored h s
  exact ⟨_, hstored, hm, rfl⟩

/-! ### Host calls and the canonical form of memory (R71) -/

/-- The canonical form is about memory alone. -/
theorem State.Inv.of_mem_eq {s t : State} (hs : s.Inv) (h : t.mem = s.mem) : t.Inv := by
  rw [State.Inv, h]
  exact hs

theorem SameButReg8.mem {s t : State} (h : SameButReg8 s t) : t.mem = s.mem := by
  rw [h]

theorem State.hostWriteIM_mem (v : Nat) (s : State) : (s.hostWriteIM v).state.mem = s.mem := by
  by_cases h : v % 4 = 3
  · rw [State.hostWriteIM_refused h]
  · obtain ⟨m, -, hstored⟩ := State.hostWriteIM_stored h s
    rw [hstored]

/-- A step keeps the canonical form, whether it is Ok or faults. -/
theorem executeInstruction_keeps_inv {s : State} (hs : s.Inv) : (executeInstruction s).state.Inv := by
  obtain ⟨t, h⟩ | ⟨f, t, h, hmem⟩ := executeInstruction_ok_or_fault s <;> rw [h]
  · exact stepKeepsMemoryCanonical s t hs (step_next_iff.2 h)
  · exact hs.of_mem_eq hmem

/-! ### Runs (R119) -/

/-- None of the first `k` steps from `s` leaves a halted state. -/
def HaltFree (k : Nat) (s : State) : Prop := ∀ j u, 0 < j → j ≤ k → core.run j s = .next u → u.halted = false

/-- Step `k + 1` from `s` is Ok, leaves `t` halted, and is the first to leave a halted state: how R119(a) describes a clean end. -/
def CleanEndAt (t : State) (k : Nat) (s : State) : Prop := core.run (k + 1) s = .next t ∧ t.halted = true ∧ HaltFree k s

/-- Step `k + 1` from `s` faults with `f` and leaves `t`, and no step before it leaves a halted state: how R119(b) describes a faulted end. -/
def FaultEndAt (t : State) (f : Fault) (k : Nat) (s : State) : Prop :=
  ∃ u, core.run k s = .next u ∧ executeInstruction u = ⟨.fault f, t⟩ ∧ HaltFree k s

theorem haltFree_zero (s : State) : HaltFree 0 s := fun _ _ hpos hle => absurd hpos (Nat.not_lt.2 hle)

section
variable {s u t : State} {f g : Fault}

theorem core_run_zero_eq_next_iff : core.run 0 s = .next t ↔ s = t := ⟨fun h => by injection h, congrArg _⟩

theorem core_run_succ_ok (n : Nat) (h : executeInstruction s = ⟨.ok, u⟩) : core.run (n + 1) s = core.run n u :=
  core_run_next n (step_next_iff.2 h)

theorem core_run_succ_fault (n : Nat) (h : executeInstruction s = ⟨.fault f, u⟩) : core.run (n + 1) s = .fault f :=
  core_run_fault n (step_fault h)

/-- The first step is the first thing to look at; what comes after it is a run from the state it leaves. -/
theorem haltFree_succ_iff (k : Nat) (h : executeInstruction s = ⟨.ok, u⟩) : HaltFree (k + 1) s ↔ u.halted = false ∧ HaltFree k u := by
  refine ⟨fun hfree => ⟨hfree 1 u Nat.one_pos (by omega) (core_run_succ_ok 0 h), fun j v hpos hle hv => ?_⟩,
    fun ⟨hu, hfree⟩ j v hpos hle hv => ?_⟩
  · exact hfree (j + 1) v (by omega) (by omega) ((core_run_succ_ok j h).trans hv)
  · obtain ⟨j, rfl⟩ : ∃ j', j = j' + 1 := ⟨j - 1, by omega⟩
    rw [core_run_succ_ok j h] at hv
    cases j with
    | zero =>
      injection hv with hv
      exact hv ▸ hu
    | succ j => exact hfree (j + 1) v (by omega) (by omega) hv

theorem cleanEndAt_zero_iff (h : executeInstruction s = ⟨.ok, u⟩) : CleanEndAt t 0 s ↔ u = t ∧ t.halted = true := by
  simp [CleanEndAt, core_run_succ_ok 0 h, core_run_zero_eq_next_iff, haltFree_zero]

theorem cleanEndAt_succ_iff (k : Nat) (h : executeInstruction s = ⟨.ok, u⟩) : CleanEndAt t (k + 1) s ↔ u.halted = false ∧ CleanEndAt t k u := by
  rw [CleanEndAt, CleanEndAt, core_run_succ_ok (k + 1) h, haltFree_succ_iff k h]
  tauto

theorem not_cleanEndAt_of_fault (k : Nat) (h : executeInstruction s = ⟨.fault g, u⟩) : ¬ CleanEndAt t k s := by
  rintro ⟨hrun, -⟩
  rw [core_run_succ_fault k h] at hrun
  injection hrun

theorem faultEndAt_zero_iff : FaultEndAt t f 0 s ↔ executeInstruction s = ⟨.fault f, t⟩ :=
  ⟨fun ⟨_, hu, hf, _⟩ => core_run_zero_eq_next_iff.1 hu ▸ hf, fun h => ⟨s, rfl, h, haltFree_zero s⟩⟩

theorem faultEndAt_succ_iff (k : Nat) (h : executeInstruction s = ⟨.ok, u⟩) :
    FaultEndAt t f (k + 1) s ↔ u.halted = false ∧ FaultEndAt t f k u := by
  simp only [FaultEndAt, core_run_succ_ok k h, haltFree_succ_iff k h]
  tauto

theorem not_faultEndAt_succ_of_fault (k : Nat) (h : executeInstruction s = ⟨.fault g, u⟩) : ¬ FaultEndAt t f (k + 1) s := by
  rintro ⟨v, hrun, -⟩
  rw [core_run_succ_fault k h] at hrun
  injection hrun

end

/-- By induction on the bound, on what the first step does: it faults, it halts, or the run goes on from the state it leaves. -/
theorem run_eq_clean_iff (n : Nat) (s t : State) : run n s = .clean t ↔ ∃ k, k < n ∧ CleanEndAt t k s := by
  induction n generalizing s with
  | zero => simp [run]
  | succ n ih =>
    rw [Nat.exists_lt_succ_left]
    obtain ⟨u, h⟩ | ⟨f, u, h, -⟩ := executeInstruction_ok_or_fault s
    · simp only [run_ok n h, cleanEndAt_zero_iff h, cleanEndAt_succ_iff _ h]
      cases hu : u.halted with
      | true => simpa using fun hut : u = t => hut ▸ hu
      | false =>
        have hne : ¬ (u = t ∧ t.halted = true) := fun ⟨hut, ht⟩ => Bool.noConfusion (hu.symm.trans (hut ▸ ht))
        simpa [hne] using ih u
    · simp [run_fault n h, not_cleanEndAt_of_fault _ h]

/-- As `run_eq_clean_iff`: a first step that faults ends the run, one that halts ends it otherwise, and else it goes on. -/
theorem run_eq_faulted_iff (n : Nat) (s t : State) (f : Fault) : run n s = .faulted t f ↔ ∃ k, k < n ∧ FaultEndAt t f k s := by
  induction n generalizing s with
  | zero => simp [run]
  | succ n ih =>
    rw [Nat.exists_lt_succ_left, faultEndAt_zero_iff]
    obtain ⟨u, h⟩ | ⟨g, u, h, -⟩ := executeInstruction_ok_or_fault s
    · simp only [run_ok n h, faultEndAt_succ_iff _ h, h]
      cases hu : u.halted with
      | true => simp
      | false => simpa using ih u
    · simp [run_fault n h, h, not_faultEndAt_succ_of_fault _ h, and_comm]

/-! ### The statements -/

/-- Settles O21: the instruction the bytes decode to is the one the step's fetches complete, and its opcode is the one at PC. -/
theorem stepRunsDecodedInstruction : Obligations.StepRunsDecodedInstruction := by
  intro s i rest hrun hdecode
  obtain ⟨o, cost, hd, rfl⟩ := State.decoded_eq_fetched hdecode
  refine ⟨cost, ?_, step_defined hrun hd⟩
  rw [State.fetchOperands_operation, opcode_of_dispatchTable _ _ _ hd, hd]

/-- Settles O22: the stored encoding is what the bytes at PC decode to, so the step runs it. -/
theorem storedEncodingRuns : Obligations.StoredEncodingRuns := by
  intro s i hs hrun
  obtain ⟨rest, hdecode⟩ := State.decode_storeBytes_encode i hs
  rw [← s.storeBytes_halted s.pc (encode i)] at hrun
  exact stepRunsDecodedInstruction _ i rest hrun (by rwa [State.storeBytes_pc])

/-- Settles O15: only a memory write and a step can change memory, and both keep the canonical form. -/
theorem hostCallsKeepMemoryCanonical : Obligations.HostCallsKeepMemoryCanonical := by
  intro s call hs
  cases call
  case executeInstruction => exact executeInstruction_keeps_inv hs
  case writeReg8 x v => exact hs.of_mem_eq (sameButReg8_writeReg8 x _ s).mem
  case writePair p v => exact hs.of_mem_eq (sameButReg8_writePair p _ s).mem
  case writeIM v => exact hs.of_mem_eq (s.hostWriteIM_mem v)
  case writeMemory a v => exact State.writeByte_wf a _ hs
  all_goals exact hs

/-- Settles O24: the fetches move PC by the length and advance R, the step adds the cost, and the instruction keeps all three. -/
theorem stepIsSequential : Obligations.StepIsSequential := by
  intro s t hrun h
  obtain ⟨hhalted, -⟩ | ⟨-, o, cost, u, hd, hu, rfl⟩ := step_cases h
  · exact Bool.noConfusion (hrun.symm.trans hhalted)
  · obtain ⟨hpc, hr, hT⟩ := exec_keeps_sequencer hu
    rw [State.fetched_pc] at hpc
    rw [State.fetched_eq] at hr hT
    refine ⟨o, cost, hd, ?_, congrArg (· + cost) hT, ?_⟩
    · rw [State.addTStates_pc, hpc]
      simp [BitVec.toNat_add]
    · rw [State.addTStates_r, hr]
      exact refreshedOnce_refreshNext s.r

/-- Settles O29: the bytes that are none of the 239 are the 17 opcodes, and a step that does not complete faults. -/
theorem stepCompletesOnDefinedOpcodes : Obligations.StepCompletesOnDefinedOpcodes := by
  refine fun s => ⟨?_, step_ne_refused s⟩
  rw [← not_undefinedByte_iff, ← executeInstruction_ok_iff]
  exact exists_congr fun t => step_next_iff

/-- Settles O23: a halted step is the refresh increment and 4 more T-states. -/
theorem haltedStepOnlyRefreshesAndCounts : Obligations.HaltedStepOnlyRefreshesAndCounts :=
  fun s hs => ⟨s.haltedStep, step_next_iff.2 (executeInstruction_halted hs), refreshedOnce_refreshNext s.r, rfl⟩

/-- Settles O38, by induction on the number of steps: the first is a halted step, and it leaves a halted state. -/
theorem haltedForever : Obligations.HaltedForever := by
  intro n
  induction n with
  | zero => exact fun s _ => ⟨s, rfl, by omega, rfl, rfl⟩
  | succ n ih =>
    intro s hs
    obtain ⟨u, hstep, ⟨hcount, hhold⟩, hu⟩ := haltedStepOnlyRefreshesAndCounts s hs
    obtain ⟨t, hrun, htcount, hthold, ht⟩ := ih u (by rw [hu]; exact hs)
    have hT : u.tStates + 4 * n = s.tStates + 4 * (n + 1) := by
      rw [hu]
      show s.tStates + 4 + 4 * n = _
      omega
    refine ⟨t, (core_run_next n hstep).trans hrun, by omega, hthold.trans hhold, ?_⟩
    rw [ht, hT, hu]

/-- Settles O39: `run_eq_clean_iff`, with `CleanEndAt` and `HaltFree` written out. -/
theorem runEndsCleanlyAtFirstHalt : Obligations.RunEndsCleanlyAtFirstHalt := run_eq_clean_iff

/-- Settles O40: `run_eq_faulted_iff`, with `FaultEndAt` and `HaltFree` written out. -/
theorem runEndsFaultedAtFirstFault : Obligations.RunEndsFaultedAtFirstFault := by
  intro n s t f
  rw [run_eq_faulted_iff]
  exact exists_congr fun k => exists_and_left.symm

/-- Settles O9: of the truncated numbers only 3 has no interrupt mode, and the one-bit fields hold the number modulo 2. -/
theorem interruptModeThreeRefusedAndRecorded : Obligations.InterruptModeThreeRefusedAndRecorded := by
  refine fun s => ⟨State.hostWriteIM_refused (v := 3) rfl s, fun v hv => ?_, fun call hstep hIM => ?_, fun v => ⟨?_, ?_, fun x => ?_⟩⟩
  · have hstored := hostCall_writeIM_stored (v := v) (by omega) s
    rwa [Nat.mod_eq_of_lt (by omega : v < 4)] at hstored
  · cases call
    case executeInstruction => exact absurd rfl hstep
    case writeIM v => exact absurd rfl (hIM v)
    all_goals rfl
  · exact toNat_decide_mod_two v
  · exact toNat_decide_mod_two v
  · obtain ⟨-, -, hflag⟩ := flagsByteAndNamedFlagsAgree s v
    obtain ⟨t, ht, hread, -, -⟩ := hflag x
    rw [ht, hread]

/-- Settles O28: a host write of IM looks at the number modulo 4 alone. -/
theorem interruptModeNumbersAboveThreeTruncate : Obligations.InterruptModeNumbersAboveThreeTruncate :=
  fun s _ _ => ⟨fun h => State.hostWriteIM_refused h s, fun h => hostCall_writeIM_stored h s⟩

/-- Settles O16: the second byte is fetched one address after the first, from the same memory. -/
theorem fetchWordReadsWordAtPC : Obligations.FetchWordReadsWordAtPC := by
  refine fun s => ⟨rfl, ?_⟩
  show s.fetch8.2.fetch8.2 = _
  simp only [State.fetch8, State.record, BitVec.add_assoc, List.append_assoc]
  rfl

/-- Settles O41: 0x00 stands for NOP, and NOP hands its state back. -/
theorem nopCompletes : Obligations.NopCompletes := ⟨encodedAs_encode rfl, fun _ => rfl⟩

/-- Settles O42: a step at 0x76 is HALT run past its one byte, and then its 4 T-states. -/
theorem haltCompletes : Obligations.HaltCompletes := by
  refine ⟨encodedAs_encode rfl, fun _ => rfl, fun s hrun hop => ?_⟩
  have hd : dispatchTable s.opcodeAtPC = .defined .halt 4 := by rw [hop]; rfl
  exact ⟨_, step_defined hrun hd, rfl, rfl, rfl, rfl⟩

end Sys2Proof.Machine
end

section
/-! PROOFS. The family 41_inc_dec8.md. First the rules these proofs share: what bits of a byte say about it as a number, how an instruction that computes
flags writes F5 and F3, and what INC8 and DEC8 leave of an operand, of the flags and of everything else; then the statements, each from those rules. -/

namespace Sys2Proof.Machine

/-! ### Bits of a byte as numbers (R7, R8) -/

theorem beq_eq_decide_toNat {w : Nat} (v k : BitVec w) : (v == k) = decide (v.toNat = k.toNat) := by
  rw [beq_eq_decide, decide_eq_decide, BitVec.toNat_eq]

/-- Bit 7, the sign, is set on the upper half of the bytes. -/
theorem getLsbD_seven_eq_decide (v : Byte) : v.getLsbD 7 = decide (128 ≤ v.toNat) :=
  v.msb_eq_getLsbD_last.symm.trans v.msb_eq_decide

theorem lowNibble_beq_eq_decide (v : Byte) (k : BitVec 4) : (v.extractLsb' 0 4 == k) = decide (v.toNat % 16 = k.toNat) := by
  rw [beq_eq_decide_toNat, BitVec.extractLsb'_toNat, Nat.shiftRight_zero]

/-- A byte as a signed number. -/
theorem byte_toInt (v : Byte) : v.toInt = if v.toNat < 128 then (v.toNat : Int) else v.toNat - 256 := by
  rw [BitVec.toInt_eq_toNat_cond]
  omega

/-! ### What every instruction that computes flags leaves (R7, R67) -/

/-- One write of F5 and F3 under F53_POLICY is what `F53Written` says, policy by policy (R7). -/
theorem f53Written_of_f53Value {s t : State} {r5 r3 : Bool} (h5 : t.flag .f5 = f53Value s.f53 s.draws r5)
    (h3 : t.flag .f3 = f53Value s.f53 (s.draws + 1) r3) (hdraws : t.draws = s.draws + f53Draws s.f53) : F53Written s t r5 r3 := by
  refine ⟨fun hpolicy => ?_, fun hpolicy => ?_⟩ <;> rw [hpolicy] at h5 h3 hdraws <;> exact ⟨h5, h3, hdraws⟩

/-- Only LD (BC),A changes memory (R67). -/
theorem sameMemory_of_exec {i : Instr} {s t : State} (h : exec i s = .next t) (hi : i ≠ .ldIndBCA) : SameMemory s t :=
  fun a => congrArg (Memory.read · a.toNat) (exec_keeps_mem h hi)

/-! ### INC8 and DEC8 of a register other than F (R140, R141) -/

theorem SameButReg8.draws {s t : State} (h : SameButReg8 s t) : t.draws = s.draws := by
  rw [h]

/-- A register write after a flag block changes the register, F and the draw counter alone. -/
theorem State.writeReg8_flagBlock_frame {s u : State} (hflags : ∃ f d, u = { s with f := f, draws := d }) (x : Reg8) (v : Byte) :
    u.writeReg8 x v =
      { s.writeReg8 x ((u.writeReg8 x v).readReg8 x) with f := (u.writeReg8 x v).f, draws := (u.writeReg8 x v).draws } := by
  obtain ⟨f, d, rfl⟩ := hflags
  cases x <;> rfl

theorem State.inc8_frame (x : Reg8) (s : State) :
    s.inc8 x = { s.writeReg8 x ((s.inc8 x).readReg8 x) with f := (s.inc8 x).f, draws := (s.inc8 x).draws } :=
  State.writeReg8_flagBlock_frame (State.inc8Flags_frame _ s) x _

theorem State.dec8_frame (x : Reg8) (s : State) :
    s.dec8 x = { s.writeReg8 x ((s.dec8 x).readReg8 x) with f := (s.dec8 x).f, draws := (s.dec8 x).draws } :=
  State.writeReg8_flagBlock_frame (State.dec8Flags_frame _ s) x _

/-- INC8 of a register leaves the numbers of R140. -/
theorem State.inc8_result {x : Reg8} (hx : x ≠ .f) (s : State) : Inc8Result (s.readReg8 x) ((s.inc8 x).readReg8 x) s (s.inc8 x) := by
  have hr : (s.inc8 x).readReg8 x = s.readReg8 x + 1#8 := State.readReg8_writeReg8_same _ _ _
  have hflag : ∀ y, (s.inc8 x).flag y = (s.inc8Flags (s.readReg8 x)).flag y := State.flag_writeReg8 hx _ _
  obtain ⟨hs, hz, h5, hh, h3, hpv, hn, hc⟩ := State.flag_inc8Flags (s.readReg8 x) s
  rw [← hflag] at hs hz h5 hh h3 hpv hn hc
  rw [← hr] at hs hz h5 h3
  refine ⟨?_, hs.trans (getLsbD_seven_eq_decide _), hz.trans (beq_eq_decide_toNat _ _), hh.trans (lowNibble_beq_eq_decide _ _),
    hpv.trans (beq_eq_decide_toNat _ _), hn, hc, f53Written_of_f53Value h5 h3 (sameButReg8_writeReg8 x _ _).draws⟩
  rw [hr, BitVec.toNat_add]
  rfl

/-- DEC8 of a register leaves the numbers of R141. -/
theorem State.dec8_result {x : Reg8} (hx : x ≠ .f) (s : State) : Dec8Result (s.readReg8 x) ((s.dec8 x).readReg8 x) s (s.dec8 x) := by
  have hr : (s.dec8 x).readReg8 x = s.readReg8 x - 1#8 := State.readReg8_writeReg8_same _ _ _
  have hflag : ∀ y, (s.dec8 x).flag y = (s.dec8Flags (s.readReg8 x)).flag y := State.flag_writeReg8 hx _ _
  obtain ⟨hs, hz, h5, hh, h3, hpv, hn, hc⟩ := State.flag_dec8Flags (s.readReg8 x) s
  rw [← hflag] at hs hz h5 hh h3 hpv hn hc
  rw [← hr] at hs hz h5 h3
  refine ⟨?_, hs.trans (getLsbD_seven_eq_decide _), hz.trans (beq_eq_decide_toNat _ _), hh.trans (lowNibble_beq_eq_decide _ _),
    hpv.trans (beq_eq_decide_toNat _ _), hn, hc, f53Written_of_f53Value h5 h3 (sameButReg8_writeReg8 x _ _).draws⟩
  rw [hr, BitVec.toNat_sub, Nat.add_comm]
  rfl

/-- What an instruction that is INC8 of a register does, in the shape of R144 and R146: result and flags, and nothing else. -/
theorem exec_inc8_completes {i : Instr} {x : Reg8} {s : State} (h : exec i s = .next (s.inc8 x)) (hx : x ≠ .f) (hi : i ≠ .ldIndBCA) :
    ∃ t, exec i s = .next t ∧ Inc8Result (s.readReg8 x) (t.readReg8 x) s t ∧
      t = { s.writeReg8 x (t.readReg8 x) with f := t.f, draws := t.draws } ∧ SameMemory s t :=
  ⟨s.inc8 x, h, State.inc8_result hx s, s.inc8_frame x, sameMemory_of_exec h hi⟩

/-- What an instruction that is DEC8 of a register does, in the shape of R145 and R147: result and flags, and nothing else. -/
theorem exec_dec8_completes {i : Instr} {x : Reg8} {s : State} (h : exec i s = .next (s.dec8 x)) (hx : x ≠ .f) (hi : i ≠ .ldIndBCA) :
    ∃ t, exec i s = .next t ∧ Dec8Result (s.readReg8 x) (t.readReg8 x) s t ∧
      t = { s.writeReg8 x (t.readReg8 x) with f := t.f, draws := t.draws } ∧ SameMemory s t :=
  ⟨s.dec8 x, h, State.dec8_result hx s, s.dec8_frame x, sameMemory_of_exec h hi⟩

/-! ### The arithmetic laws (R142) -/

/-- R142 for INC8 is a reading of its numbers: 0x7F alone overflows, 0xFF alone wraps to zero. -/
theorem Inc8Result.laws {v r : Byte} {s t : State} (h : Inc8Result v r s t) : Inc8Laws v r s t := by
  obtain ⟨hr, hs, hz, -, hpv, -, hc, -⟩ := h
  have hv : v.toNat < 256 := v.isLt
  refine ⟨hr, hc, ?_, ?_, ?_, ?_⟩ <;> simp only [hs, hz, hpv, decide_eq_true_eq, byte_toInt] <;> omega

/-- R142 for DEC8 is a reading of its numbers: 0x80 alone overflows, 0x01 alone gives zero. -/
theorem Dec8Result.laws {v r : Byte} {s t : State} (h : Dec8Result v r s t) : Dec8Laws v r s t := by
  obtain ⟨hr, hs, hz, -, hpv, -, hc, -⟩ := h
  have hv : v.toNat < 256 := v.isLt
  refine ⟨hr, hc, ?_, ?_, ?_⟩ <;> simp only [hs, hz, hpv, decide_eq_true_eq, byte_toInt] <;> omega

/-! ### The statements -/

/-- Settles O43: INC B is INC8 of the register B. -/
theorem incBCompletes : Obligations.IncBCompletes :=
  ⟨encodedAs_encode rfl, fun _ => exec_inc8_completes (i := .incB) (x := .b) rfl (by decide) (by decide)⟩

/-- Settles O44: DEC B is DEC8 of the register B. -/
theorem decBCompletes : Obligations.DecBCompletes :=
  ⟨encodedAs_encode rfl, fun _ => exec_dec8_completes (i := .decB) (x := .b) rfl (by decide) (by decide)⟩

/-- Settles O45: INC C is INC8 of the register C. -/
theorem incCCompletes : Obligations.IncCCompletes :=
  ⟨encodedAs_encode rfl, fun _ => exec_inc8_completes (i := .incC) (x := .c) rfl (by decide) (by decide)⟩

/-- Settles O46: DEC C is DEC8 of the register C. -/
theorem decCCompletes : Obligations.DecCCompletes :=
  ⟨encodedAs_encode rfl, fun _ => exec_dec8_completes (i := .decC) (x := .c) rfl (by decide) (by decide)⟩

/-- Settles O47: each instruction runs INC8 or DEC8 of its register, and R142 follows from what that leaves. -/
theorem incDecArithmeticLaws : Obligations.IncDecArithmeticLaws := by
  refine fun s t => ⟨?_, ?_, ?_, ?_⟩ <;> intro h <;> injection h with h <;> subst h
  · exact (State.inc8_result (x := .b) (by decide) s).laws
  · exact (State.inc8_result (x := .c) (by decide) s).laws
  · exact (State.dec8_result (x := .b) (by decide) s).laws
  · exact (State.dec8_result (x := .c) (by decide) s).laws

end Sys2Proof.Machine
end

section
/-! PROOFS. The family 42_arith16.md. First the rules these proofs share: what a write of BC leaves, and what the 16-bit add leaves of its destination pair,
of the flags and of everything else; then the statements, each from those rules. -/

namespace Sys2Proof.Machine

/-! ### A new value in BC (R160, R161) -/

/-- What an instruction that only writes a value to BC does, in the shape of R160 and R161: no flag and no byte of memory is touched. -/
theorem exec_writeBC_completes {i : Instr} {s : State} {v : Word} {n : Nat} (h : exec i s = .next (s.writePair .bc v)) (hv : v.toNat = n) :
    ∃ t, exec i s = .next t ∧ (t.readPair .bc).toNat = n ∧ t = { s with b := t.b, c := t.c } ∧ SameMemory s t :=
  ⟨s.writePair .bc v, h, by rw [State.readPair_writePair_same, hv], rfl, fun _ => rfl⟩

/-! ### The 16-bit add into a pair other than AF (R162) -/

theorem SameButReg8.f53 {s t : State} (h : SameButReg8 s t) : t.f53 = s.f53 := by
  rw [h]

/-- A flag block leaves a pair that is not AF alone. -/
theorem State.readPair_flagBlock {s u : State} (hflags : ∃ f d, u = { s with f := f, draws := d }) {p : Pair} (hp : p.low ≠ .f) :
    u.readPair p = s.readPair p := by
  obtain ⟨f, d, rfl⟩ := hflags
  cases p
  case af => exact absurd rfl hp
  all_goals rfl

theorem State.readPair_add16 {dst : Pair} (hdst : dst.low ≠ .f) (src : Pair) (s : State) :
    (s.add16 dst src).readPair dst = s.readPair dst + s.readPair src :=
  (State.readPair_flagBlock (State.add16Flags_frame _ _ _) hdst).trans (State.readPair_writePair_same _ _ _)

/-- H is the carry out of bit 11 and C the carry out of bit 15 (R162). -/
theorem State.carries_add16 (dst src : Pair) (s : State) :
    (s.add16 dst src).flag .h = decide (0xFFF < (s.readPair dst).toNat % 0x1000 + (s.readPair src).toNat % 0x1000) ∧
    (s.add16 dst src).flag .c = decide (0xFFFF < (s.readPair dst).toNat + (s.readPair src).toNat) := by
  obtain ⟨-, hh, -, -, hc, -⟩ :=
    State.flag_add16Flags (s.readPair dst) (s.readPair src) (s.writePair dst (s.readPair dst + s.readPair src))
  exact ⟨hh, hc⟩

/-- F5 and F3 are written once, from bits 13 and 11 of the sum (R7, R162). -/
theorem State.f53Written_add16 (dst src : Pair) (s : State) :
    F53Written s (s.add16 dst src) ((s.readPair dst + s.readPair src).getLsbD 13) ((s.readPair dst + s.readPair src).getLsbD 11) := by
  have hsame := sameButReg8_writePair dst (s.readPair dst + s.readPair src) s
  obtain ⟨h5, -, h3, -⟩ :=
    State.flag_add16Flags (s.readPair dst) (s.readPair src) (s.writePair dst (s.readPair dst + s.readPair src))
  have hdraws : (s.add16 dst src).draws = (s.writePair dst (s.readPair dst + s.readPair src)).draws +
      f53Draws (s.writePair dst (s.readPair dst + s.readPair src)).f53 := rfl
  rw [hsame.draws, hsame.f53] at h5 h3 hdraws
  exact f53Written_of_f53Value h5 h3 hdraws

/-! ### The statements -/

/-- Settles O50: ADD HL,BC is the 16-bit add of BC into HL. -/
theorem addHLBCCompletes : Obligations.AddHLBCCompletes := by
  refine ⟨encodedAs_encode rfl, fun s => ⟨s.add16 .hl .bc, rfl, ?_⟩⟩
  have hhl : (s.add16 .hl .bc).readPair .hl = s.readPair .hl + s.readPair .bc := State.readPair_add16 (by decide) .bc s
  obtain ⟨hh, hc⟩ := State.carries_add16 .hl .bc s
  obtain ⟨hn, hkept⟩ := State.flag_add16 (dst := .hl) (by decide) .bc s
  refine ⟨by rw [hhl, BitVec.toNat_add], hc, hh, hn, hkept .s (by simp), hkept .z (by simp), hkept .pv (by simp), ?_, rfl, fun _ => rfl⟩
  rw [hhl]
  exact State.f53Written_add16 .hl .bc s

/-- Settles O48: INC BC writes BC + 1 to BC. -/
theorem incBCCompletes : Obligations.IncBCCompletes :=
  ⟨encodedAs_encode rfl, fun _ => exec_writeBC_completes rfl (BitVec.toNat_add _ _)⟩

/-- Settles O49: DEC BC writes BC - 1 to BC, which is BC + 0xFFFF modulo 2^16. -/
theorem decBCCompletes : Obligations.DecBCCompletes :=
  ⟨encodedAs_encode rfl, fun _ => exec_writeBC_completes rfl (by rw [BitVec.toNat_sub, Nat.add_comm]; rfl)⟩

end Sys2Proof.Machine
end

section
/-! PROOFS. The family 43_exchange.md: the exchange of AF and AF' is its own inverse, and R180 is read off `State.exchange_af`. -/

namespace Sys2Proof.Machine

/-- No half is lost: the second exchange brings every half back (R180). -/
theorem State.exchange_af_exchange_af (s : State) : (s.exchange .af .shadowAF).exchange .af .shadowAF = s := by
  rw [State.exchange_af, State.exchange_af]

/-- Settles O51: EX AF,AF' is the exchange of AF and AF', which swaps both halves and undoes itself. -/
theorem exchangeCompletes : Obligations.ExchangeCompletes := by
  refine ⟨encodedAs_encode rfl, fun s => ⟨s.exchange .af .shadowAF, rfl, ?_⟩⟩
  have hback : exec .exAFAF (s.exchange .af .shadowAF) = .next s := congrArg Host.Outcome.next s.exchange_af_exchange_af
  rw [State.exchange_af] at hback ⊢
  exact ⟨rfl, rfl, rfl, rfl, rfl, fun _ => rfl, hback⟩

end Sys2Proof.Machine
end

section
/-! PROOFS. The family 44_rotate.md. First the rules these proofs share: a rotate of a byte as a number and bit by bit, and what an accumulator rotate leaves of
A, of the flags and of everything else; then the statements, each from those rules. -/

namespace Sys2Proof.Machine

/-! ### The rotates of a byte (R190, R191, R192) -/

theorem rotateLeftByte_toNat (v : Byte) : (rotateLeftByte v).toNat = v.toNat % 128 * 2 + v.toNat / 128 := by
  have hv : v.toNat < 256 := v.isLt
  rw [rotateLeftByte, BitVec.toNat_append, ← Nat.shiftLeft_add_eq_or_of_lt (BitVec.isLt _)]
  simp only [BitVec.extractLsb'_toNat, Nat.shiftLeft_eq, Nat.shiftRight_eq_div_pow]
  omega

theorem rotateRightByte_toNat (v : Byte) : (rotateRightByte v).toNat = v.toNat % 2 * 128 + v.toNat / 2 := by
  have hv : v.toNat < 256 := v.isLt
  rw [rotateRightByte, BitVec.toNat_append, ← Nat.shiftLeft_add_eq_or_of_lt (BitVec.isLt _)]
  simp only [BitVec.extractLsb'_toNat, Nat.shiftLeft_eq, Nat.shiftRight_eq_div_pow]
  omega

theorem rotateRightByte_rotateLeftByte (v : Byte) : rotateRightByte (rotateLeftByte v) = v := by
  have hv : v.toNat < 256 := v.isLt
  apply BitVec.eq_of_toNat_eq
  rw [rotateRightByte_toNat, rotateLeftByte_toNat]
  omega

theorem rotateLeftByte_rotateRightByte (v : Byte) : rotateLeftByte (rotateRightByte v) = v := by
  have hv : v.toNat < 256 := v.isLt
  apply BitVec.eq_of_toNat_eq
  rw [rotateLeftByte_toNat, rotateRightByte_toNat]
  omega

/-- Rotating left moves each bit one place up, and bit 7 round to bit 0. -/
theorem getLsbD_rotateLeftByte {i : Nat} (hi : i < 8) (v : Byte) : (rotateLeftByte v).getLsbD i = v.getLsbD ((i + 7) % 8) := by
  rw [rotateLeftByte, BitVec.getLsbD_append]
  cases i with
  | zero => rw [if_pos Nat.zero_lt_one, BitVec.getLsbD_extractLsb']; rfl
  | succ j =>
    have hj : j < 7 := by omega
    have hplace : (j + 1 + 7) % 8 = j := by omega
    simp [hj, hplace]

/-- Rotating right takes bit 0 round to bit 7, since rotating left takes it back. -/
theorem getLsbD_seven_rotateRightByte (v : Byte) : (rotateRightByte v).getLsbD 7 = v.getLsbD 0 :=
  calc (rotateRightByte v).getLsbD 7 = (rotateLeftByte (rotateRightByte v)).getLsbD 0 := (getLsbD_rotateLeftByte (i := 0) (by decide) _).symm
    _ = v.getLsbD 0 := by rw [rotateLeftByte_rotateRightByte]

/-- After `n` rotates left, bit `i` is the one that stood `n` places below it, round the byte. -/
theorem getLsbD_rotateLeftByte_iterate (n : Nat) {i : Nat} (hi : i < 8) (v : Byte) :
    (rotateLeftByte^[n] v).getLsbD i = v.getLsbD ((i + 7 * n) % 8) := by
  induction n generalizing v with
  | zero => rw [Nat.mul_zero, Nat.add_zero, Nat.mod_eq_of_lt hi, Function.iterate_zero_apply]
  | succ n ih =>
    rw [Function.iterate_succ_apply, ih, getLsbD_rotateLeftByte (Nat.mod_lt _ (by decide))]
    congr 1
    omega

theorem rotateLeftByte_iterate_eight (v : Byte) : rotateLeftByte^[8] v = v := by
  apply BitVec.eq_of_getLsbD_eq
  intro i hi
  rw [getLsbD_rotateLeftByte_iterate 8 hi, show (i + 7 * 8) % 8 = i by omega]

/-- Eight rotates left undo eight rotates right, and eight rotates left do nothing. -/
theorem rotateRightByte_iterate_eight (v : Byte) : rotateRightByte^[8] v = v :=
  calc rotateRightByte^[8] v = rotateLeftByte^[8] (rotateRightByte^[8] v) := (rotateLeftByte_iterate_eight _).symm
    _ = v := Function.LeftInverse.iterate rotateLeftByte_rotateRightByte 8 v

/-! ### An accumulator rotate (R190, R191) -/

/-- The flag block of a rotate reads as R190 and R191 have it, whatever the new A and the bit that leaves. -/
theorem State.rotateFlags_result (r : Byte) (c : Bool) (s : State) :
    RotateFlagsResult s (({ s with a := r } : State).rotateFlags r c) := by
  obtain ⟨-, hh, hn, h5, h3, hs, hz, hpv⟩ := State.flag_rotateFlags r c { s with a := r }
  exact ⟨hh, hn, hs, hz, hpv, f53Written_of_f53Value h5 h3 rfl⟩

/-- What an instruction that is an accumulator rotate does, in the shape of R190 and R191: the new A, the flags, and nothing else. -/
theorem exec_rotate_completes {i : Instr} {s : State} {r : Byte} {c c' : Bool} {n : Nat}
    (h : exec i s = .next (({ s with a := r } : State).rotateFlags r c)) (hr : r.toNat = n) (hc : c = c') :
    ∃ t, exec i s = .next t ∧ t.a.toNat = n ∧ t.flag .c = c' ∧ RotateFlagsResult s t ∧
      t = { s with a := t.a, f := t.f, draws := t.draws } ∧ SameMemory s t := by
  obtain ⟨hflag, -⟩ := State.flag_rotateFlags r c { s with a := r }
  exact ⟨_, h, hr, hflag.trans hc, State.rotateFlags_result r c s, rfl, fun _ => rfl⟩

theorem exec_rotate_a_and_carry {i : Instr} {s t : State} {r : Byte} {c : Bool}
    (hrotate : exec i s = .next (({ s with a := r } : State).rotateFlags r c)) (h : exec i s = .next t) : t.a = r ∧ t.flag .c = c := by
  obtain ⟨hc, -⟩ := State.flag_rotateFlags r c { s with a := r }
  injection hrotate.symm.trans h with ht
  exact ht ▸ ⟨rfl, hc⟩

theorem exec_rlca_a_and_carry {s t : State} (h : exec .rlca s = .next t) : t.a = rotateLeftByte s.a ∧ t.flag .c = s.a.getLsbD 7 :=
  exec_rotate_a_and_carry rfl h

theorem exec_rrca_a_and_carry {s t : State} (h : exec .rrca s = .next t) : t.a = rotateRightByte s.a ∧ t.flag .c = s.a.getLsbD 0 :=
  exec_rotate_a_and_carry rfl h

/-- Where an instruction takes A to `g A`, running it `n` times takes A to `g` of A, `n` times over. -/
theorem execTimes_a {i : Instr} {g : Byte → Byte} (hg : ∀ {s t : State}, exec i s = .next t → t.a = g s.a) {n : Nat} {s t : State}
    (h : execTimes n i s = .next t) : t.a = g^[n] s.a := by
  induction n generalizing s with
  | zero =>
    injection h with h
    exact congrArg State.a h.symm
  | succ n ih =>
    obtain ⟨u, hu⟩ := exec_completes i s
    rw [execTimes, hu] at h
    rw [Function.iterate_succ_apply, ← hg hu, ih h]

/-! ### The statements -/

/-- Settles O52: RLCA is the rotate of A to the left, and the bit that leaves is bit 7, set on the upper half of the bytes. -/
theorem rlcaCompletes : Obligations.RlcaCompletes :=
  ⟨encodedAs_encode rfl, fun s => exec_rotate_completes rfl (rotateLeftByte_toNat s.a) (getLsbD_seven_eq_decide s.a)⟩

/-- Settles O53: RRCA is the rotate of A to the right, and the bit that leaves is bit 0, set in the odd bytes. -/
theorem rrcaCompletes : Obligations.RrcaCompletes :=
  ⟨encodedAs_encode rfl, fun s => exec_rotate_completes rfl (rotateRightByte_toNat s.a) (Nat.testBit_zero s.a.toNat)⟩

/-- Settles O54: what the rotates do to A are the rotates of a byte, and the bit that leaves is the one that comes in at the other end. -/
theorem rotateLaws : Obligations.RotateLaws := by
  refine fun s t u => ⟨fun hst htu => ?_, fun hst htu => ?_, fun h => ?_, fun h => ?_, fun h => ?_, fun h => ?_⟩
  · rw [(exec_rrca_a_and_carry htu).1, (exec_rlca_a_and_carry hst).1, rotateRightByte_rotateLeftByte]
  · rw [(exec_rlca_a_and_carry htu).1, (exec_rrca_a_and_carry hst).1, rotateLeftByte_rotateRightByte]
  · rw [execTimes_a (fun h => (exec_rlca_a_and_carry h).1) h, rotateLeftByte_iterate_eight]
  · rw [execTimes_a (fun h => (exec_rrca_a_and_carry h).1) h, rotateRightByte_iterate_eight]
  · obtain ⟨ha, hc⟩ := exec_rlca_a_and_carry h
    rw [hc, ha, BitVec.testBit_toNat, getLsbD_rotateLeftByte (by decide)]
  · obtain ⟨ha, hc⟩ := exec_rrca_a_and_carry h
    rw [hc, ha, BitVec.testBit_toNat, getLsbD_seven_rotateRightByte]

end Sys2Proof.Machine
end

section
/-! PROOFS. The family 45_loads.md. First the rules these proofs share: what each load does to the state it runs on, and what a step at an immediate load
fetches as its operand; then the statements, each from those rules. -/

namespace Sys2Proof.Machine

/-! ### The loads (R200, R202, R203, R204) -/

theorem exec_ldBCnn (nn : Word) (s : State) : exec (.ldBCnn nn) s = .next (s.writePair .bc nn) := rfl

theorem exec_ldBn (n : Byte) (s : State) : exec (.ldBn n) s = .next (s.writeReg8 .b n) := rfl

theorem exec_ldCn (n : Byte) (s : State) : exec (.ldCn n) s = .next (s.writeReg8 .c n) := rfl

/-- LD A,(BC) is one recorded read at BC and a write of A (R203). -/
theorem exec_ldAIndBC (s : State) :
    exec .ldAIndBC s = .next ((s.dataRead (s.readPair .bc)).2.writeReg8 .a (s.readByte (s.readPair .bc))) := rfl

/-- What an instruction that only writes a register does: no byte of memory is touched. -/
theorem exec_writeReg8_completes {i : Instr} {x : Reg8} {v : Byte} {s : State} (h : exec i s = .next (s.writeReg8 x v)) :
    ∃ t, exec i s = .next t ∧ t = s.writeReg8 x v ∧ SameMemory s t :=
  ⟨_, h, rfl, fun a => congrArg (Memory.read · a.toNat) (sameButReg8_writeReg8 x v s).mem⟩

/-! ### A step at an immediate load (R86, R110) -/

section
variable {s : State} {o : Operation} {cost : Nat}

/-- The operand `n` of a step is the byte after the opcode (R113). -/
theorem step_imm8 {build : Byte → Instr} (hrun : s.halted = false) (hd : dispatchTable s.opcodeAtPC = .defined o cost)
    (hshape : o.shape = .imm8 build) :
    step s = mapNext (State.addTStates cost)
      (exec (build (s.readByte (s.pc + 1#16))) (s.afterFetch (build (s.readByte (s.pc + 1#16))))) := by
  rw [step_defined hrun hd, State.fetchOperands_imm8 hshape]
  rfl

/-- The operand `nn` of a step is the two bytes after the opcode, low byte first (R114). -/
theorem step_imm16 {build : Word → Instr} (hrun : s.halted = false) (hd : dispatchTable s.opcodeAtPC = .defined o cost)
    (hshape : o.shape = .imm16 build) :
    step s = mapNext (State.addTStates cost)
      (exec (build (s.readWord (s.pc + 1#16))) (s.afterFetch (build (s.readWord (s.pc + 1#16))))) := by
  rw [step_defined hrun hd, State.fetchOperands_imm16 hshape]
  rfl

end

/-! ### The statements -/

/-- Settles O55: the load writes both halves of nn, and the step's nn is the word after the opcode. -/
theorem ldBCnnCompletes : Obligations.LdBCnnCompletes := by
  refine ⟨fun s nn => ⟨encodedAs_encode rfl, _, exec_ldBCnn nn s, State.readPair_writePair_same .bc nn s, loByte_toNat nn, hiByte_toNat nn,
    rfl, fun _ => rfl⟩, fun s hrun hop => ?_⟩
  have hd : dispatchTable s.opcodeAtPC = .defined .ldBCnn 10 := by rw [hop]; rfl
  have hhigh : hiByte (s.readWord (s.pc + 1#16)) = s.readByte (s.pc + 2#16) := by
    rw [State.readWord, hiByte_joinBytes, BitVec.add_assoc]
    rfl
  exact ⟨_, step_imm16 hrun hd rfl, loByte_joinBytes _ _, hhigh, rfl, rfl, rfl⟩

/-- Settles O56: the load is one recorded write of A at BC, so a fetch from there reads A. -/
theorem ldIndBCACompletes : Obligations.LdIndBCACompletes := by
  refine ⟨encodedAs_encode rfl, fun s => ?_⟩
  have hstored : s.Inv → (s.dataWrite (s.indirectAddress .bc) s.a).readByte (s.indirectAddress .bc) = s.a :=
    State.readByte_writeByte_same _ _
  refine ⟨_, exec_ldIndBCA s, hstored, fun _ ha => State.readByte_writeByte_other s.a s ha, fun hs hpc => ?_, rfl, rfl⟩
  calc (s.dataWrite (s.indirectAddress .bc) s.a).opcodeAtPC
      = (s.dataWrite (s.indirectAddress .bc) s.a).readByte s.pc := rfl
    _ = s.a := by rw [← hpc]; exact hstored hs

/-- Settles O57: the load writes B alone, and the step's n is the byte after the opcode. -/
theorem ldBnCompletes : Obligations.LdBnCompletes := by
  refine ⟨fun s n => ⟨encodedAs_encode rfl, exec_writeReg8_completes (exec_ldBn n s)⟩, fun s hrun hop => ?_⟩
  have hd : dispatchTable s.opcodeAtPC = .defined .ldBn 7 := by rw [hop]; rfl
  exact ⟨_, step_imm8 hrun hd rfl, rfl, rfl, rfl, rfl, rfl⟩

/-- Settles O59: the load writes C alone, and the step's n is the byte after the opcode. -/
theorem ldCnCompletes : Obligations.LdCnCompletes := by
  refine ⟨fun s n => ⟨encodedAs_encode rfl, exec_writeReg8_completes (exec_ldCn n s)⟩, fun s hrun hop => ?_⟩
  have hd : dispatchTable s.opcodeAtPC = .defined .ldCn 7 := by rw [hop]; rfl
  exact ⟨_, step_imm8 hrun hd rfl, rfl, rfl, rfl, rfl, rfl⟩

/-- Settles O58: the load is one recorded read at BC, and A is the byte it gives. -/
theorem ldAIndBCCompletes : Obligations.LdAIndBCCompletes :=
  ⟨encodedAs_encode rfl, fun s => ⟨_, exec_ldAIndBC s, rfl, rfl, fun _ => rfl⟩⟩

end Sys2Proof.Machine
end

section
/-! PROOFS. The family 60_exceptions.md. First the rules these proofs share: when a call of `executeInstruction` faults and what it then leaves; then the
statements, each from those rules. -/

namespace Sys2Proof.Machine

/-! ### When a step faults (R221, R222) -/

/-- What a DecodeFault leaves: the state before the step, but for the fetch in the history and the fault in the model's record (R221, R225). -/
def State.afterDecodeFault (s : State) : State :=
  { s with bus := s.bus ++ [.fetch s.pc s.opcodeAtPC], faults := s.faults ++ [.decodeFault s.pc s.opcodeAtPC] }

@[simp] theorem State.afterDecodeFault_halted (s : State) : s.afterDecodeFault.halted = s.halted := rfl

@[simp] theorem State.afterDecodeFault_opcodeAtPC (s : State) : s.afterDecodeFault.opcodeAtPC = s.opcodeAtPC := rfl

theorem executeInstruction_of_undefinedByte {s : State} (hrun : s.halted = false) (hop : UndefinedByte s.opcodeAtPC) :
    executeInstruction s = ⟨.fault (.decodeFault s.pc s.opcodeAtPC), s.afterDecodeFault⟩ :=
  executeInstruction_undefined hrun ((dispatchTable_eq_undefined_iff _).2 hop)

/-- Only a running step on one of the 239 bytes faults: every other step is Ok. -/
theorem running_undefined_of_fault {s t : State} {f : Fault} (h : executeInstruction s = ⟨.fault f, t⟩) :
    s.halted = false ∧ UndefinedByte s.opcodeAtPC := by
  have hnotOk : ¬ (s.halted = true ∨ ¬ UndefinedByte s.opcodeAtPC) := fun hok => by
    obtain ⟨u, hu⟩ := executeInstruction_ok hok
    cases h.symm.trans hu
  obtain ⟨hrun, hop⟩ := not_or.1 hnotOk
  exact ⟨Bool.eq_false_iff.2 hrun, not_not.1 hop⟩

/-- Everything a faulting call can be. -/
theorem executeInstruction_fault_iff {s t : State} {f : Fault} :
    executeInstruction s = ⟨.fault f, t⟩ ↔
      s.halted = false ∧ UndefinedByte s.opcodeAtPC ∧ f = .decodeFault s.pc s.opcodeAtPC ∧ t = s.afterDecodeFault := by
  refine ⟨fun h => ?_, fun ⟨hrun, hop, hf, ht⟩ => hf ▸ ht ▸ executeInstruction_of_undefinedByte hrun hop⟩
  obtain ⟨hrun, hop⟩ := running_undefined_of_fault h
  cases h.symm.trans (executeInstruction_of_undefinedByte hrun hop)
  exact ⟨hrun, hop, rfl, rfl⟩

theorem step_fault_iff {s : State} {f : Fault} : step s = .fault f ↔ ∃ t, executeInstruction s = ⟨.fault f, t⟩ := by
  refine ⟨fun h => ?_, fun ⟨_, ht⟩ => step_fault ht⟩
  obtain ⟨t, hok⟩ | ⟨g, t, hfault, -⟩ := executeInstruction_ok_or_fault s
  · cases h.symm.trans (step_next_iff.2 hok)
  · cases h.symm.trans (step_fault hfault)
    exact ⟨t, hfault⟩

/-! ### The statements -/

/-- Settles O26: a step faults where its call does, and the call is a DecodeFault exactly in a running state on one of the 239 bytes. -/
theorem faultsExactlyOnUndefinedOpcode : Obligations.FaultsExactlyOnUndefinedOpcode := by
  intro s f
  simp only [step_fault_iff, executeInstruction_fault_iff, exists_and_left, exists_eq, and_true]

/-- Settles O27: a retry finds the same PC, the same byte there and the engine still running, none of which a DecodeFault changes. -/
theorem decodeFaultLeavesStateAndRepeats : Obligations.DecodeFaultLeavesStateAndRepeats := by
  refine ⟨fun s hrun hop => ⟨executeInstruction_of_undefinedByte hrun hop, rfl⟩, fun s t f h => ?_⟩
  obtain ⟨hrun, hop, rfl, rfl⟩ := executeInstruction_fault_iff.1 h
  have hretry : UndefinedByte s.afterDecodeFault.opcodeAtPC := s.afterDecodeFault_opcodeAtPC ▸ hop
  exact ⟨_, executeInstruction_of_undefinedByte (s.afterDecodeFault_halted.trans hrun) hretry⟩

end Sys2Proof.Machine
end

section
/-! PROOFS. The family 70_reset_and_hazards.md. First the rules these proofs share: each part of a step carries a larger T along, and a reset processor is the
constructed one; then the statements, each from those rules. -/

namespace Sys2Proof.Machine

/-! ### Nothing reads T (R115, R261) -/

theorem State.addTStates_comm (m n : Nat) (s : State) : (s.addTStates m).addTStates n = (s.addTStates n).addTStates m :=
  congrArg (fun t => { s with tStates := t }) (Nat.add_right_comm s.tStates m n)

/-- Two changes of the next state that commute on states commute on outcomes. -/
theorem mapNext_comm {g h : State → State} (hgh : ∀ s, g (h s) = h (g s)) (x : Host.Outcome State Fault Refusal) :
    mapNext g (mapNext h x) = mapNext h (mapNext g x) := by
  cases x with
  | next s => exact congrArg Host.Outcome.next (hgh s)
  | fault f => rfl
  | refused r => rfl

theorem State.haltedStep_addTStates (k : Nat) (s : State) : (s.addTStates k).haltedStep = s.haltedStep.addTStates k :=
  State.addTStates_comm k 4 s.refresh

/-- The fetches of a step complete the same instruction whatever T is. -/
theorem State.fetched_fst_addTStates (o : Operation) (k : Nat) (s : State) :
    ((s.addTStates k).fetch8.2.refresh.fetchOperands o).1 = (s.fetch8.2.refresh.fetchOperands o).1 := by
  cases o <;> rfl

theorem State.afterFetch_addTStates (i : Instr) (k : Nat) (s : State) : (s.addTStates k).afterFetch i = (s.afterFetch i).addTStates k := rfl

/-- No instruction reads or writes T. -/
theorem exec_addTStates (i : Instr) (k : Nat) (s : State) : exec i (s.addTStates k) = mapNext (State.addTStates k) (exec i s) := by
  cases i <;> rfl

/-! ### The reset processor (R250) -/

/-- `reset()` leaves the ProcessorState of the constructed machine, whatever the state it is called in. -/
theorem State.resetProcessor_processorZero (s : State) : ProcessorZero s.resetProcessor :=
  constructedStateIsZero

/-! ### The statements -/

/-- Settles O37: a halted step adds to T alone; a fault does not mention T; and a step that runs an instruction carries T along through its fetches and the
operation, after which its cost is added, in either order. -/
theorem tStatesHaveNoEffect : Obligations.TStatesHaveNoEffect := by
  intro s k
  cases hh : s.halted with
  | true =>
    rw [step_next_iff.2 (executeInstruction_halted hh), step_next_iff.2 (executeInstruction_halted (s := s.addTStates k) hh),
      State.haltedStep_addTStates]
    rfl
  | false =>
    cases hd : dispatchTable s.opcodeAtPC with
    | undefined =>
      rw [step_fault (executeInstruction_undefined hh hd), step_fault (executeInstruction_undefined (s := s.addTStates k) hh hd)]
      rfl
    | defined o cost =>
      rw [step_defined hh hd, step_defined (s := s.addTStates k) hh hd, State.fetched_fst_addTStates, State.afterFetch_addTStates,
        exec_addTStates, mapNext_comm (State.addTStates_comm k cost)]

/-- Settles O1: the processor is the constructed one, and memory, the history and the port calls are not written. -/
theorem resetZeroesProcessorKeepsMemory : Obligations.ResetZeroesProcessorKeepsMemory :=
  fun s => ⟨s.resetProcessor, rfl, s.resetProcessor_processorZero, fun _ => rfl, rfl, rfl⟩

/-- Settles O3: `reset()` reads only what it keeps, so the second call finds and leaves the state of the first. -/
theorem resetIdempotent : Obligations.ResetIdempotent :=
  fun _ => rfl

/-- Settles O4: the call is that one assignment. -/
theorem resetTStatesOnly : Obligations.ResetTStatesOnly :=
  fun _ => rfl

end Sys2Proof.Machine
end
